-- ==== Sys2Proof/Word.lean ====
section
/-! DEFINITION. The three word sizes of the block: the byte of the stream, the 16-bit field of the wire format, and the 32-bit
control register, command word, response word and counter (spec/00_scope.md R7, R13). All are unsigned. -/

namespace Sys2Proof

/-- A byte of the stream, 0 .. 255 (R13). -/
abbrev Byte := BitVec 8

/-- A 16-bit wire field: `length`, `msg_length`, `topic`; also the operand A16 of a command word (R13, R87). -/
abbrev Half := BitVec 16

/-- A 32-bit value: a control register, a counter, a command or response word (R7, R13). -/
abbrev Word := BitVec 32

end Sys2Proof
end

