-- ==== Sys2Proof/Syntax.lean ====
section
/-! DEFINITION. The eight commands of spec/opcode_table.json, the three channels they are placed on, the command descriptor
that carries them, and the moves of the agents (the block's channels, its host, the byte source, the byte sink, the platform). -/

namespace Sys2Proof

/-- The three command channels (spec/00_scope.md R10). -/
inductive Channel where
  | rxc
  | txc
  | ctlc
  deriving DecidableEq, Repr, Inhabited

/-- The eight opcodes (spec/30_encoding.md R88). -/
inductive Op where
  | csum
  | build
  | extract
  | rxNextEnv
  | rxNextFrame
  | txSend
  | csrRead
  | csrWrite
  deriving DecidableEq, Repr

/-- A decoded command, one constructor per row of spec/opcode_table.json.
A pure command names the channel it runs on, the prefix of R95, since every channel executes it (R10).
Each other command has one channel. -/
inductive Instr where
  /-- CSUM (R122): `data` is the data lane. -/
  | csum (c : Channel) (data : List Byte)
  /-- BUILD (R143): `rid` is A8, `topic` is A16, `data` is the payload. -/
  | build (c : Channel) (rid : Byte) (topic : Half) (data : List Byte)
  /-- EXTRACT (R169): `data` is the inner frame. -/
  | extract (c : Channel) (data : List Byte)
  /-- RX_NEXT_ENV (R207). -/
  | rxNextEnv
  /-- RX_NEXT_FRAME (R209). -/
  | rxNextFrame
  /-- TX_SEND (R145): `rid` is A8, `topic` is A16, `data` is the payload. -/
  | txSend (rid : Byte) (topic : Half) (data : List Byte)
  /-- CSR_READ (R241): `off` is A16. -/
  | csrRead (off : Half)
  /-- CSR_WRITE (R245): `off` is A16, `v` the little-endian value of the 4 data bytes. -/
  | csrWrite (off : Half) (v : Word)
  deriving DecidableEq, Repr

/-- A command as the host presents it (spec/30_encoding.md R87): the command word W and the data lane D.
The data length DLEN is the lane's length, since D has exactly DLEN bytes. -/
structure Descriptor where
  w : Word
  data : List Byte
  deriving DecidableEq, Repr, Inhabited

/-- One atomic move of one agent (spec/00_scope.md R10, spec/20_memory.md R66, R71).
Which agent moves next, and what the environment does, are draws (R16); a list of moves is one interleaving. -/
inductive Move where
  /-- A step of a channel: it accepts the command placed on it, or goes on with the command it executes. -/
  | chan (c : Channel)
  /-- The further step a held pull has when TIMEOUT_ENABLED (spec/43_stream_reader.md R222). -/
  | timeout
  /-- The host places a command on a channel (R11). -/
  | place (c : Channel) (x : Descriptor)
  /-- SRC delivers one byte (spec/10_state.md R40). -/
  | srcByte (b : Byte)
  /-- SRC closes (R40). -/
  | srcClose
  /-- SNK accepts the waiting envelope whole (R41, spec/41_frame_builder.md R147). -/
  | snkAccept
  /-- SNK closes (R41). -/
  | snkClose
  /-- The platform asserts power-on reset (spec/70_reset_and_hazards.md R290). -/
  | powerOn
  deriving DecidableEq, Repr, Inhabited

/-- The opcode of a command. -/
def Instr.op : Instr → Op
  | .csum _ _ => .csum
  | .build _ _ _ _ => .build
  | .extract _ _ => .extract
  | .rxNextEnv => .rxNextEnv
  | .rxNextFrame => .rxNextFrame
  | .txSend _ _ _ => .txSend
  | .csrRead _ => .csrRead
  | .csrWrite _ _ => .csrWrite

/-- The channel a command runs on (R88). -/
def Instr.channel : Instr → Channel
  | .csum c _ => c
  | .build c _ _ _ => c
  | .extract c _ => c
  | .rxNextEnv => .rxc
  | .rxNextFrame => .rxc
  | .txSend _ _ _ => .txc
  | .csrRead _ => .ctlc
  | .csrWrite _ _ => .ctlc

end Sys2Proof
end

