-- ==== Sys2Proof/Config.lean ====
section
/-! DEFINITION. What an implementation fixes: the sizes and markers of spec/00_scope.md R7, the open parameter TIMEOUT_ENABLED
of R9, and the draws of R16. The last two are opaque: no proof sees their value, so a claim holds for every value. -/

namespace Sys2Proof.Config

/-- `SYNC`, the sync byte (R7). -/
def sync : Byte := 0xFF

/-- `VERSION`, the inner frame's version byte (R7). -/
def version : Byte := 0xFE

/-- `ENV_HDR_LEN`, the bytes of an envelope header (R7). -/
def envHdrLen : Nat := 4

/-- `INNER_OVERHEAD`, the bytes of an inner frame that are not payload (R7). -/
def innerOverhead : Nat := 8

/-- `MAX_PAYLOAD`, the largest payload that can be framed (R7, R140). -/
def maxPayload : Nat := 65527

/-- `RX_BUF_CAP`, the capacity of `rx_buf` (R7, R26). -/
def rxBufCap : Nat := 65535

/-- `REPLAY_CAP`, the capacity of `rx_replay` (R7, R214). -/
def replayCap : Nat := 65538

/-- `TIMEOUT_ENABLED`, the one model parameter the spec leaves open (R9, decision D12).
FREE VALUE, log entry 3. -/
opaque timeoutEnabled : Bool

/-- The draws of R16: which agent moves at the n-th undetermined step and, for the environment and the host, what it does.
FREE VALUE, log entry 2: one unknown interleaving, so what is proved of it holds of every interleaving. -/
opaque freeMove : Nat → Move

end Sys2Proof.Config
end

