-- ==== Sys2Proof/WellFormed.lean ====
section
/-! DEFINITION. Which commands exist as commands: a data lane's length is the 32-bit number DLEN (spec/00_scope.md R7,
spec/20_memory.md R61). Every other field has its width in its type, and an offset is checked by the command's own rule
(spec/30_encoding.md R89). -/

namespace Sys2Proof

/-- The longest data lane is 2^32 - 1 bytes (R61). -/
def laneFits (data : List Byte) : Bool := decide (data.length < 2 ^ 32)

/-- A command whose data lane has a length that DLEN can say. -/
def Instr.wf : Instr → Bool
  | .csum _ data => laneFits data
  | .build _ _ _ data => laneFits data
  | .extract _ data => laneFits data
  | .rxNextEnv => true
  | .rxNextFrame => true
  | .txSend _ _ data => laneFits data
  | .csrRead _ => true
  | .csrWrite _ _ => true

/-- A descriptor whose data lane has a length that DLEN can say (R87). -/
def Descriptor.wf (x : Descriptor) : Bool := laneFits x.data

end Sys2Proof
end

