-- ==== Sys2Proof/Decode.lean ====
section
/-! DEFINITION. From the bytes of a command to the command or a refusal by name, and back (spec/30_encoding.md R87 to R90), with
the byte-order helpers of spec/00_scope.md R14 and spec/20_memory.md R62, R63 that the whole model uses. -/

namespace Sys2Proof

/-! ### Byte order -/

/-- `lo8(v) = v[7:0]` (R14). -/
def lo8 (v : Half) : Byte := v.extractLsb' 0 8

/-- `hi8(v) = v[15:8]` (R14). -/
def hi8 (v : Half) : Byte := v.extractLsb' 8 8

/-- `le16(lo, hi) = lo + 256*hi` (R14). -/
def le16 (lo hi : Byte) : Half := hi ++ lo

/-- The 32-bit value of 4 bytes, the least significant first (R63). -/
def le32 (b0 b1 b2 b3 : Byte) : Word := b3 ++ b2 ++ b1 ++ b0

/-- The 4 bytes of a 32-bit value, the least significant first (R63). -/
def wordBytes (v : Word) : List Byte :=
  [v.extractLsb' 0 8, v.extractLsb' 8 8, v.extractLsb' 16 8, v.extractLsb' 24 8]

/-- `B[i]` (R14); every use is below the string's length. -/
def byteAt (b : List Byte) (i : Nat) : Byte := b.getD i 0

/-- `B[i:j]`, the bytes at indices i .. j-1 (R14). -/
def slice (b : List Byte) (i j : Nat) : List Byte := (b.take j).drop i

/-! ### The fields of a command word (R87) -/

/-- OP = W[7:0]. -/
def fieldOp (w : Word) : Byte := w.extractLsb' 0 8

/-- A8 = W[15:8]. -/
def fieldA8 (w : Word) : Byte := w.extractLsb' 8 8

/-- A16 = W[31:16]. -/
def fieldA16 (w : Word) : Half := w.extractLsb' 16 16

/-- The command word with the given fields. -/
def commandWord (op : Byte) (a8 : Byte) (a16 : Half) : Word := a16 ++ a8 ++ op

/-! ### The opcode map (R88) -/

/-- The eight opcodes in the order of R88. -/
def allOps : List Op :=
  [.csum, .build, .extract, .rxNextEnv, .rxNextFrame, .txSend, .csrRead, .csrWrite]

/-- The OP value of an opcode. -/
def opCode : Op → Byte
  | .csum => 0x01
  | .build => 0x02
  | .extract => 0x03
  | .rxNextEnv => 0x10
  | .rxNextFrame => 0x11
  | .txSend => 0x20
  | .csrRead => 0x30
  | .csrWrite => 0x31

/-- The opcode of an OP value; every value that is not in the map is reserved and illegal (R90). -/
def opOfCode (b : Byte) : Option Op := allOps.find? (fun o => opCode o == b)

/-- The channels a command may be placed on. -/
def opChannels : Op → List Channel
  | .csum => [.rxc, .txc, .ctlc]
  | .build => [.rxc, .txc, .ctlc]
  | .extract => [.rxc, .txc, .ctlc]
  | .rxNextEnv => [.rxc]
  | .rxNextFrame => [.rxc]
  | .txSend => [.txc]
  | .csrRead => [.ctlc]
  | .csrWrite => [.ctlc]

/-- Whether the command uses A8; where it does not, A8 must be 0. -/
def opUsesA8 : Op → Bool
  | .csum => false
  | .build => true
  | .extract => false
  | .rxNextEnv => false
  | .rxNextFrame => false
  | .txSend => true
  | .csrRead => false
  | .csrWrite => false

/-- Whether the command uses A16; where it does not, A16 must be 0. -/
def opUsesA16 : Op → Bool
  | .csum => false
  | .build => true
  | .extract => false
  | .rxNextEnv => false
  | .rxNextFrame => false
  | .txSend => true
  | .csrRead => true
  | .csrWrite => true

/-- Whether the command may have a data lane of n bytes. -/
def opDlenOk (op : Op) (n : Nat) : Bool :=
  match op with
  | .csum => true
  | .build => true
  | .extract => true
  | .rxNextEnv => n == 0
  | .rxNextFrame => n == 0
  | .txSend => true
  | .csrRead => n == 0
  | .csrWrite => n == 4

/-- The value a CSR_WRITE carries in its data lane (R63, R245). -/
def laneWord (data : List Byte) : Word :=
  le32 (byteAt data 0) (byteAt data 1) (byteAt data 2) (byteAt data 3)

/-- The command with opcode `op` and operands A8, A16 and D, on channel `c`. -/
def instrOf (op : Op) (c : Channel) (a8 : Byte) (a16 : Half) (data : List Byte) : Instr :=
  match op with
  | .csum => .csum c data
  | .build => .build c a8 a16 data
  | .extract => .extract c data
  | .rxNextEnv => .rxNextEnv
  | .rxNextFrame => .rxNextFrame
  | .txSend => .txSend a8 a16 data
  | .csrRead => .csrRead a16
  | .csrWrite => .csrWrite a16 (laneWord data)

/-! ### Decode (R89) -/

/-- Why bytes are no command. Every reason but the first is answered with IllegalCommand (R89, R90). -/
inductive Reject where
  /-- Fewer bytes than a whole descriptor: not a command that a host can place (R87). -/
  | incomplete
  /-- OP is not in the opcode map. -/
  | undefinedOp
  /-- The opcode may not be placed on this channel. -/
  | wrongChannel
  /-- A8 is nonzero and unused. -/
  | nonzeroA8
  /-- A16 is nonzero and unused. -/
  | nonzeroA16
  /-- DLEN is not what the opcode requires. -/
  | wrongDlen
  deriving DecidableEq, Repr

/-- `decode(c, W, DLEN)` (R89), its tests in the rule's order. -/
def decode (c : Channel) (x : Descriptor) : Except Reject Instr :=
  match opOfCode (fieldOp x.w) with
  | none => .error .undefinedOp
  | some op =>
    if !(opChannels op).contains c then .error .wrongChannel
    else if !opUsesA8 op && fieldA8 x.w != 0 then .error .nonzeroA8
    else if !opUsesA16 op && fieldA16 x.w != 0 then .error .nonzeroA16
    else if !opDlenOk op x.data.length then .error .wrongDlen
    else .ok (instrOf op c (fieldA8 x.w) (fieldA16 x.w) x.data)

/-- The serialised form of a descriptor: W, DLEN, D, each number least significant byte first (R87). -/
def Descriptor.bytes (x : Descriptor) : List Byte :=
  wordBytes x.w ++ wordBytes (BitVec.ofNat 32 x.data.length) ++ x.data

/-- Reads one descriptor from the front of a byte string and leaves the rest: 8 bytes, then DLEN data bytes (R87). -/
def readDescriptor (b : List Byte) : Except Reject (Descriptor × List Byte) :=
  match b with
  | w0 :: w1 :: w2 :: w3 :: n0 :: n1 :: n2 :: n3 :: rest =>
    let n := (le32 n0 n1 n2 n3).toNat
    if rest.length < n then .error .incomplete
    else .ok (⟨le32 w0 w1 w2 w3, rest.take n⟩, rest.drop n)
  | _ => .error .incomplete

/-- Reads one command for channel `c` from the front of a byte string and leaves the rest. -/
def decodeBytes (c : Channel) (b : List Byte) : Except Reject (Instr × List Byte) :=
  match readDescriptor b with
  | .error e => .error e
  | .ok (x, rest) =>
    match decode c x with
    | .error e => .error e
    | .ok i => .ok (i, rest)

/-! ### Encode -/

/-- The descriptor of a command (R87, R88). -/
def encode : Instr → Descriptor
  | .csum _ data => ⟨commandWord (opCode .csum) 0 0, data⟩
  | .build _ rid topic data => ⟨commandWord (opCode .build) rid topic, data⟩
  | .extract _ data => ⟨commandWord (opCode .extract) 0 0, data⟩
  | .rxNextEnv => ⟨commandWord (opCode .rxNextEnv) 0 0, []⟩
  | .rxNextFrame => ⟨commandWord (opCode .rxNextFrame) 0 0, []⟩
  | .txSend rid topic data => ⟨commandWord (opCode .txSend) rid topic, data⟩
  | .csrRead off => ⟨commandWord (opCode .csrRead) 0 off, []⟩
  | .csrWrite off v => ⟨commandWord (opCode .csrWrite) 0 off, wordBytes v⟩

/-! ### The opcode table's numbering -/

/-- DLEN where the table gives only W's bits: 0, but for CSR_WRITE, whose row says that DLEN is 4 (log entry 14). -/
def tableDlen (w : Nat) : Nat :=
  if opOfCode (BitVec.ofNat 8 w) = some .csrWrite then 4 else 0

/-- The descriptor whose bits are w: W in bits 31..0, DLEN in bits 63..32 where nbits reaches them, the data lane above. -/
def tableDescriptor (nbits w : Nat) : Descriptor :=
  let dlen := if nbits ≤ 32 then tableDlen w else (w / 2 ^ 32) % 2 ^ 32
  ⟨BitVec.ofNat 32 w, (List.range dlen).map (fun k => BitVec.ofNat 8 (w % 2 ^ nbits / 2 ^ (64 + 8 * k)))⟩

/-- The channel a table row's command is placed on: the first its row lists (log entry 14). -/
def tableChannel (w : Nat) : Channel :=
  match opOfCode (BitVec.ofNat 8 w) with
  | none => .ctlc
  | some op => (opChannels op).headD .ctlc

/-- What the decoder reads from the instruction whose bits are w, numbered as spec/opcode_table.json numbers them. -/
def decodeTableWord (nbits w : Nat) : Option Instr :=
  match decodeBytes (tableChannel w) (tableDescriptor nbits w).bytes with
  | .error _ => none
  | .ok (i, _) => some i

end Sys2Proof
end

