-- ==== Sys2Proof/Machine/State.lean ====
section
/-! DEFINITION. The state of the block and of its environment (spec/10_state.md R20 to R44), as plain data, and the state right
after power-on reset. Fields that are the model's own and not the spec's say so. -/

namespace Sys2Proof.Machine

/-- The receive state machine's states (R23). The encodings 5, 6 and 7 are never held, so they are no constructors. -/
inductive RxState where
  | hunt
  | hdrId
  | hdrLenLo
  | hdrLenHi
  | payload
  deriving DecidableEq, Repr

/-- The status codes a response can carry (spec/30_encoding.md R92). -/
inductive Status where
  | ok
  | badSyncOrVersion
  | checksumMismatch
  | badLength
  | valueTooLarge
  | sourceClosed
  | sinkClosed
  | noSyncFound
  | timeout
  | illegalCommand
  | aborted
  deriving DecidableEq, Repr

/-- A response (R91): the fields of the response word V, the value RVAL and the data lane, whose length is RLEN. -/
structure Response where
  status : Status
  cs1Bad : Bool
  cs2Bad : Bool
  r8 : Byte
  rval : Word
  data : List Byte
  deriving DecidableEq, Repr

/-- The run-time configuration (R8): CTRL.CSUM_STRICT and CTRL.RESCAN (R30) and SYNC_BUDGET (R32).
The snapshot `cfg_c` of a channel has the same three fields (R37). -/
structure Cfg where
  strict : Bool
  rescan : Bool
  budget : Word
  deriving DecidableEq, Repr

/-- The receive datapath registers, exactly those R78 lists (R23 to R29). -/
structure RxPath where
  /-- `rx_st` (R23). -/
  st : RxState
  /-- `rx_rid` (R24). -/
  rid : Byte
  /-- `rx_len_lo` (R25). -/
  lenLo : Byte
  /-- `rx_len` (R25). -/
  len : Half
  /-- `rx_buf`, oldest byte first (R26); `rx_cnt` is its length. -/
  buf : List Byte
  /-- `rx_replay`, the next byte first (R28). -/
  replay : List Byte
  /-- `rx_hunt_run` (R29). -/
  huntRun : Word
  deriving DecidableEq, Repr

/-- The sticky bits of STATUS (R31). -/
structure Sticky where
  nosync : Bool
  rxReject : Bool
  csumSeen : Bool
  deriving DecidableEq, Repr

/-- The event counters at offsets 0x10 .. 0x34, in offset order (R34). -/
structure Counters where
  huntDrop : Word
  env : Word
  frameOk : Word
  badSync : Word
  cs1Bad : Word
  cs2Bad : Word
  badLen : Word
  nosync : Word
  txOk : Word
  txTooLarge : Word
  deriving DecidableEq, Repr

/-- The state of one command channel (R37). -/
structure Chan where
  /-- MODEL'S OWN: the command the host has placed and the channel has not accepted yet (log entry 4). -/
  placed : Option Descriptor
  /-- The command being executed; `busy_c` is 1 exactly when there is one. -/
  cmd : Option Instr
  /-- `cfg_c`, the snapshot taken when the channel last accepted a command. -/
  cfg : Cfg
  /-- MODEL'S OWN: the responses returned on this channel, oldest first (log entry 5). -/
  resp : List Response
  deriving DecidableEq, Repr

/-- The environment (R40, R41): it belongs to no reset of the block (R294). -/
structure Env where
  /-- `src_q`, the delivered bytes not taken yet, the next byte first. -/
  srcQ : List Byte
  /-- `src_closed`. -/
  srcClosed : Bool
  /-- `snk_log`, the accepted bytes, oldest first. -/
  snkLog : List Byte
  /-- `snk_closed`. -/
  snkClosed : Bool
  deriving DecidableEq, Repr

/-- The whole state (R20). -/
structure State where
  /-- The receive datapath. -/
  rx : RxPath
  /-- CTRL's two RW fields and SYNC_BUDGET. -/
  ctrl : Cfg
  /-- STATUS's W1C bits; its other bits are views of `rx`, the channels and the closure latches (R243). -/
  sticky : Sticky
  /-- The event counters. -/
  cnt : Counters
  /-- The receive command channel. -/
  rxc : Chan
  /-- The transmit command channel. -/
  txc : Chan
  /-- The control channel. -/
  ctlc : Chan
  /-- `tx_env`, the envelope waiting for the sink (R37). -/
  txEnv : List Byte
  /-- `rx_closed` (R38). -/
  rxClosed : Bool
  /-- `tx_closed` (R39). -/
  txClosed : Bool
  /-- The byte source and the byte sink. -/
  env : Env
  /-- MODEL'S OWN: the moves already determined, the next one first (log entry 1). -/
  moves : List Move
  /-- MODEL'S OWN: how many moves have been drawn from `Config.freeMove` (log entry 2). -/
  drawn : Nat
  deriving DecidableEq, Repr

/-- The block has no fault outcome: no state of it is undefined and no read returns an unspecified value (R288).
So there is no constructor, and nobody raises one. -/
inductive Fault where
  deriving DecidableEq, Repr

/-- Why the model gives an instruction no meaning. -/
inductive Refusal where
  /-- Raised by `exec` alone, in the arm of an instruction that has no meaning yet; no arm has it now. Safe: the model stops
  where the block goes on. -/
  | notModelled (mnemonic : String)
  deriving DecidableEq, Repr

/-! ### Reset values (R44, R291) -/

/-- The receive datapath of a newly constructed reader. -/
def RxPath.reset : RxPath :=
  ⟨.hunt, 0, 0, 0, [], [], 0⟩

/-- CTRL = 0x00000001 and SYNC_BUDGET = 0. -/
def Cfg.reset : Cfg := ⟨true, false, 0⟩

/-- Every sticky bit 0. -/
def Sticky.reset : Sticky := ⟨false, false, false⟩

/-- Every counter 0. -/
def Counters.reset : Counters := ⟨0, 0, 0, 0, 0, 0, 0, 0, 0, 0⟩

/-- An idle channel with nothing placed. The snapshot's value is DESIGN CHOICE, log entry 6: the spec gives none. -/
def Chan.reset : Chan := ⟨none, none, Cfg.reset, []⟩

/-- An environment that has done nothing yet: an open, empty source and an open sink (R40, R41).
The empty `src_q` is DESIGN CHOICE, log entry 7. -/
def Env.reset : Env := ⟨[], false, [], false⟩

/-- The machine right after power-on reset (R291), before any agent has moved. -/
def State.reset : State :=
  { rx := RxPath.reset
    ctrl := Cfg.reset
    sticky := Sticky.reset
    cnt := Counters.reset
    rxc := Chan.reset
    txc := Chan.reset
    ctlc := Chan.reset
    txEnv := []
    rxClosed := false
    txClosed := false
    env := Env.reset
    moves := []
    drawn := 0 }

end Sys2Proof.Machine
end

