-- ==== Sys2Proof/Machine/Flags.lean ====
section
/-! DEFINITION. Every computed flag and code: the checksum and its validator (spec/40_checksum.md), the extractor's verdict with
its FLAGS (spec/42_frame_extractor.md R160), the response word (spec/30_encoding.md R91, R92) and the STATUS register's bits
(spec/10_state.md R31). -/

namespace Sys2Proof.Machine

/-! ### Checksum -/

/-- `sum(B)`, the exact sum of the bytes (spec/00_scope.md R14). -/
def sumBytes (b : List Byte) : Nat := (b.map BitVec.toNat).sum

/-- `checksum(B) = 255 - (sum(B) mod 256)` (R120). -/
def checksum (b : List Byte) : Byte := BitVec.ofNat 8 (255 - sumBytes b % 256)

/-- `csum_ok(B, c)` (R123). -/
def csumOk (b : List Byte) (c : Byte) : Bool := checksum b == c

/-! ### The extractor -/

/-- What `extract` returns: `(status, flags, topic, payload)` (R160). -/
structure Verdict where
  status : Status
  cs1Bad : Bool
  cs2Bad : Bool
  topic : Half
  payload : List Byte
  deriving DecidableEq, Repr

/-- A failing verdict: topic 0 and no payload. -/
def Verdict.fail (st : Status) (cs1 cs2 : Bool) : Verdict := ⟨st, cs1, cs2, 0, []⟩

/-- `msg_length` of an inner frame (spec/30_encoding.md R81). -/
def msgLength (f : List Byte) : Nat := (le16 (byteAt f 2) (byteAt f 3)).toNat

/-- The markers of an inner frame are not `0xFF, 0xFE` (R163). -/
def badMarkers (f : List Byte) : Bool :=
  byteAt f 0 != Config.sync || byteAt f 1 != Config.version

/-- CS1_BAD: checksum_1 over `F[2:4]` is not `F[4]` (R164). -/
def cs1Bad (f : List Byte) : Bool := !csumOk (slice f 2 4) (byteAt f 4)

/-- CS2_BAD: checksum_2 over `F[5:7+m]` is not `F[7+m]` (R166). -/
def cs2Bad (f : List Byte) : Bool :=
  !csumOk (slice f 5 (7 + msgLength f)) (byteAt f (7 + msgLength f))

/-- `extract(F, strict)` (R160), its tests in the rule's order. -/
def extract (f : List Byte) (strict : Bool) : Verdict :=
  if f.length < Config.innerOverhead then Verdict.fail .badLength false false
  else if badMarkers f then Verdict.fail .badSyncOrVersion false false
  else if cs1Bad f && strict then Verdict.fail .checksumMismatch true false
  else if f.length ≠ msgLength f + Config.innerOverhead then Verdict.fail .badLength (cs1Bad f) false
  else if cs2Bad f && strict then Verdict.fail .checksumMismatch (cs1Bad f) true
  else ⟨.ok, cs1Bad f, cs2Bad f, le16 (byteAt f 5) (byteAt f 6), slice f 7 (7 + msgLength f)⟩

/-! ### The response word -/

/-- The value 2^n if `b` is set, else 0: a one-bit field at bit n. -/
def bitAt (b : Bool) (n : Nat) : Word := if b then BitVec.twoPow 32 n else 0

/-- STATUS codes (R92). -/
def statusCode : Status → Byte
  | .ok => 0x00
  | .badSyncOrVersion => 0x01
  | .checksumMismatch => 0x02
  | .badLength => 0x03
  | .valueTooLarge => 0x04
  | .sourceClosed => 0x05
  | .sinkClosed => 0x06
  | .noSyncFound => 0x07
  | .timeout => 0x08
  | .illegalCommand => 0x09
  | .aborted => 0x0A

/-- The response word V: STATUS 7:0, CS1_BAD 8, CS2_BAD 9, R8 23:16, every other bit 0 (R91). -/
def Response.word (r : Response) : Word :=
  (statusCode r.status).setWidth 32 ||| bitAt r.cs1Bad 8 ||| bitAt r.cs2Bad 9 ||| (r.r8.setWidth 32 <<< 16)

/-- RLEN, the length of the data lane (R91). -/
def Response.rlen (r : Response) : Word := BitVec.ofNat 32 r.data.length

/-- The serialised response: V, RVAL, RLEN, data, each number least significant byte first (R91). -/
def Response.bytes (r : Response) : List Byte :=
  wordBytes r.word ++ wordBytes r.rval ++ wordBytes r.rlen ++ r.data

/-! ### The STATUS register -/

/-- The encoding of `rx_st` (R23). -/
def rxStateCode : RxState → Word
  | .hunt => 0
  | .hdrId => 1
  | .hdrLenLo => 2
  | .hdrLenHi => 3
  | .payload => 4

end Sys2Proof.Machine
end

