-- ==== Sys2Proof/Machine/Operands.lean ====
section
/-! DEFINITION. How a command reaches its operands: the channel it runs on (spec/10_state.md R37), the input byte of a receive
step (spec/43_stream_reader.md R196), and the CSR offset (spec/44_control.md R242). -/

namespace Sys2Proof.Machine

/-! ### Channels -/

/-- The state of channel `c`. -/
def State.chan (s : State) (c : Channel) : Chan :=
  match c with
  | .rxc => s.rxc
  | .txc => s.txc
  | .ctlc => s.ctlc

/-- Writes the state of channel `c`. -/
def State.setChan (s : State) (c : Channel) (x : Chan) : State :=
  match c with
  | .rxc => { s with rxc := x }
  | .txc => { s with txc := x }
  | .ctlc => { s with ctlc := x }

/-- `busy_c`: 1 while the channel executes a command (R37). -/
def State.busy (s : State) (c : Channel) : Bool := (s.chan c).cmd.isSome

/-- Whether a command is a pull (spec/00_scope.md R17). -/
def isPull (i : Instr) : Bool :=
  match i.op with
  | .rxNextEnv => true
  | .rxNextFrame => true
  | .csum => false
  | .build => false
  | .extract => false
  | .txSend => false
  | .csrRead => false
  | .csrWrite => false

/-- A pull is pending on RXC (R190). -/
def State.pullPending (s : State) : Bool := s.rxc.cmd.any isPull

/-- A TX_SEND waits for the sink (spec/41_frame_builder.md R146). -/
def State.sendWaiting (s : State) : Bool := s.txc.cmd.any (fun i => i.op == .txSend)

/-! ### The input of the receive path -/

/-- `take()` (R196): the head of `rx_replay` if there is one, else the head of `src_q`, removed from its queue. -/
def State.take (s : State) : Option (Byte × State) :=
  match s.rx.replay with
  | b :: r => some (b, { s with rx := { s.rx with replay := r } })
  | [] =>
    match s.env.srcQ with
    | b :: q => some (b, { s with env := { s.env with srcQ := q } })
    | [] => none

/-! ### CSR offsets -/

/-- The offset check of R242: a multiple of 4 below 0x38. -/
def csrOffsetOk (off : Half) : Bool := off.toNat % 4 == 0 && off.toNat < 0x38

end Sys2Proof.Machine
end

