-- ==== Sys2Proof/Machine/Ops.lean ====
section
/-! DEFINITION. The operations the meanings share: accepting and completing a command (spec/10_state.md R37, spec/30_encoding.md
R94), `raise` (spec/60_exceptions.md R262: this block's whole "exception entry"), the two resets (spec/70_reset_and_hazards.md
R290 to R293), the host's and the environment's moves (spec/00_scope.md R11, spec/10_state.md R40, R41), and the draw of the next
move (R16). There is no trap, so nothing is saved and there is no return (R278, R279). -/

namespace Sys2Proof.Machine

/-! ### Responses -/

/-- A response with the given status and every result field 0 (R15, R262). -/
def Response.fail (st : Status) : Response := ⟨st, false, false, 0, 0, []⟩

/-- The plain OK response: every result field 0 (R93). -/
def Response.done : Response := ⟨.ok, false, false, 0, 0, []⟩

/-! ### Accept, complete, raise -/

/-- The acceptance of a command on its channel: `busy_c` becomes 1 and `cfg_c` is sampled (R37, R304). -/
def accept (c : Channel) (i : Instr) (s : State) : State :=
  s.setChan c { s.chan c with cmd := some i, cfg := s.ctrl }

/-- `complete(S, fields)` on channel `c` (R94): the response is returned and `busy_c` becomes 0. -/
def complete (c : Channel) (r : Response) (s : State) : State :=
  s.setChan c { s.chan c with cmd := none, resp := (s.chan c).resp ++ [r] }

/-- `raise S` on channel `c` (R262). -/
def raise (c : Channel) (st : Status) (s : State) : State := complete c (Response.fail st) s

/-- A command that accepts and completes in one step, on an idle channel (for the pure commands log entry 16).
On a busy channel there is no move (R288, log entry 10). -/
def oneStep (c : Channel) (i : Instr) (s : State) (f : State → State) : State :=
  if s.busy c then s else f (accept c i s)

/-! ### Reset -/

/-- A command pending on channel `c` at a reset completes with Aborted (R293). -/
def abort (c : Channel) (s : State) : State :=
  if s.busy c then raise c .aborted s else s

/-- What both resets do (R290, R291, R293): all of the block but CTRL's fields and SYNC_BUDGET. -/
def softReset (s : State) : State :=
  let s1 := abort .txc (abort .rxc s)
  { s1 with
    rx := RxPath.reset
    sticky := Sticky.reset
    cnt := Counters.reset
    ctlc := { s1.ctlc with cmd := none }
    txEnv := []
    rxClosed := false
    txClosed := false }

/-- Power-on reset (R291): the soft reset, and CTRL and SYNC_BUDGET at their reset values. -/
def powerOnReset (s : State) : State := { softReset s with ctrl := Cfg.reset }

/-! ### The host and the environment -/

/-- The host places a command on a channel (R11).
No move on a channel that is busy or already holds a placed command, and none with a lane that DLEN cannot say (R87, R288). -/
def hostPlace (c : Channel) (x : Descriptor) (s : State) : State :=
  if s.busy c || (s.chan c).placed.isSome || !x.wf then s
  else s.setChan c { s.chan c with placed := some x }

/-- The channel takes the placed command off its latch, to decode it. -/
def unplace (c : Channel) (s : State) : State := s.setChan c { s.chan c with placed := none }

/-- SRC delivers a byte, only while the source is open (R40). -/
def srcDeliver (b : Byte) (s : State) : State :=
  if s.env.srcClosed then s else { s with env := { s.env with srcQ := s.env.srcQ ++ [b] } }

/-- SRC closes (R40). -/
def srcShut (s : State) : State := { s with env := { s.env with srcClosed := true } }

/-- SNK closes (R41). -/
def snkShut (s : State) : State := { s with env := { s.env with snkClosed := true } }

/-! ### The next move -/

/-- The next move and the state without it: the head of `moves`, else a draw (R16, log entries 1 and 2). -/
def State.draw (s : State) : Move × State :=
  match s.moves with
  | m :: ms => (m, { s with moves := ms })
  | [] => (Config.freeMove s.drawn, { s with drawn := s.drawn + 1 })

end Sys2Proof.Machine
end

