-- ==== Sys2Proof/Machine/Builder.lean ====
section
/-! DEFINITION. The frame builder and the transmit path: `build`, BUILD, TX_SEND and the sink's acceptance
(spec/41_frame_builder.md). -/

namespace Sys2Proof.Machine

/-! ### The build function -/

/-- The 2 bytes of a 16-bit field, low byte first (spec/20_memory.md R62). -/
def halfBytes (v : Half) : List Byte := [lo8 v, hi8 v]

/-- The inner frame of R81: markers, `msg_length`, checksum_1, topic, payload, checksum_2. -/
def innerFrame (topic : Half) (payload : List Byte) : List Byte :=
  let m : Half := BitVec.ofNat 16 payload.length
  [Config.sync, Config.version] ++ halfBytes m ++ [checksum (halfBytes m)] ++ halfBytes topic ++ payload
    ++ [checksum (halfBytes topic ++ payload)]

/-- The envelope of R80 around the inner frame, for a payload that fits (R141). -/
def envelope (topic : Half) (rid : Byte) (payload : List Byte) : List Byte :=
  [Config.sync, rid] ++ halfBytes (BitVec.ofNat 16 (payload.length + Config.innerOverhead)) ++ innerFrame topic payload

/-- `build(topic, robot_id, P)` (R140, R141): none is ValueTooLarge. -/
def build (topic : Half) (rid : Byte) (payload : List Byte) : Option (List Byte) :=
  if payload.length > Config.maxPayload then none else some (envelope topic rid payload)

/-! ### BUILD -/

/-- The response of BUILD: the envelope, or ValueTooLarge (R143, R144). -/
def buildResponse (rid : Byte) (topic : Half) (data : List Byte) : Response :=
  match build topic rid data with
  | none => Response.fail .valueTooLarge
  | some e => { Response.done with data := e }

/-- BUILD (R143). -/
def execBuild (c : Channel) (rid : Byte) (topic : Half) (data : List Byte) (s : State) :
    Host.Outcome State Fault Refusal :=
  .next (oneStep c (.build c rid topic data) s (complete c (buildResponse rid topic data)))

/-! ### TX_SEND and the sink -/

/-- The acceptance step of TX_SEND, after its acceptance on the channel (R145). -/
def sendAccept (rid : Byte) (topic : Half) (data : List Byte) (s : State) : State :=
  match build topic rid data with
  | none => raise .txc .valueTooLarge { s with cnt := { s.cnt with txTooLarge := s.cnt.txTooLarge + 1 } }
  | some e => if s.txClosed then raise .txc .sinkClosed s else { s with txEnv := e }

/-- A TXC step while TX_SEND waits: it observes the sink closed (R148), or holds (R146). -/
def sendWait (s : State) : State :=
  if s.env.snkClosed then raise .txc .sinkClosed { s with txClosed := true, txEnv := [] } else s

/-- A SNK step that accepts: the waiting envelope whole, and TX_SEND completes (R147).
No move while no TX_SEND waits or the sink is closed (spec/10_state.md R41). -/
def sinkAccept (s : State) : State :=
  if s.sendWaiting && !s.env.snkClosed then
    complete .txc Response.done
      { s with
        env := { s.env with snkLog := s.env.snkLog ++ s.txEnv }
        txEnv := []
        cnt := { s.cnt with txOk := s.cnt.txOk + 1 } }
  else s

/-- TX_SEND (R145 to R149): the acceptance step on an idle TXC, a waiting step while TXC executes this command.
While TXC executes another command there is no move (R288, log entry 10). -/
def execTxSend (rid : Byte) (topic : Half) (data : List Byte) (s : State) : Host.Outcome State Fault Refusal :=
  match s.txc.cmd with
  | none => .next (sendAccept rid topic data (accept .txc (.txSend rid topic data) s))
  | some i => if i = .txSend rid topic data then .next (sendWait s) else .next s

end Sys2Proof.Machine
end

