-- ==== Sys2Proof/Machine/Checksum.lean ====
section
/-! DEFINITION. The checksum unit's command, CSUM (spec/40_checksum.md R122). The function itself is in Flags.lean. -/

namespace Sys2Proof.Machine

/-- The response of CSUM: R8 is the checksum of the data lane. -/
def csumResponse (data : List Byte) : Response := { Response.done with r8 := checksum data }

/-- CSUM (R122). -/
def execCsum (c : Channel) (data : List Byte) (s : State) : Host.Outcome State Fault Refusal :=
  .next (oneStep c (.csum c data) s (complete c (csumResponse data)))

end Sys2Proof.Machine
end

