-- ==== Sys2Proof/Machine/Control.lean ====
section
/-! DEFINITION. The control commands CSR_READ and CSR_WRITE over the CSR space (spec/44_control.md). -/

namespace Sys2Proof.Machine

/-! ### Register values -/

/-- CTRL as read: RESCAN in bit 1, CSUM_STRICT in bit 0, the rest 0 (R243). -/
def ctrlWord (s : State) : Word := bitAt s.ctrl.strict 0 ||| bitAt s.ctrl.rescan 1

/-- STATUS as read (R243). -/
def statusWord (s : State) : Word :=
  rxStateCode s.rx.st ||| bitAt (s.busy .rxc) 3 ||| bitAt (s.busy .txc) 4 ||| bitAt s.rxClosed 8
    ||| bitAt s.txClosed 9 ||| bitAt s.sticky.nosync 16 ||| bitAt s.sticky.rxReject 17 ||| bitAt s.sticky.csumSeen 18

/-- `read_value(off)` (R243); only offsets that pass R242 are read. -/
def csrValue (off : Half) (s : State) : Word :=
  match off.toNat with
  | 0x00 => ctrlWord s
  | 0x04 => statusWord s
  | 0x08 => s.ctrl.budget
  | 0x0C => BitVec.ofNat 32 s.rx.replay.length
  | 0x10 => s.cnt.huntDrop
  | 0x14 => s.cnt.env
  | 0x18 => s.cnt.frameOk
  | 0x1C => s.cnt.badSync
  | 0x20 => s.cnt.cs1Bad
  | 0x24 => s.cnt.cs2Bad
  | 0x28 => s.cnt.badLen
  | 0x2C => s.cnt.nosync
  | 0x30 => s.cnt.txOk
  | 0x34 => s.cnt.txTooLarge
  | _ => 0

/-- The counters after a write to the counter at `off`: that counter is 0 (spec/10_state.md R35). -/
def Counters.clear (k : Counters) (off : Nat) : Counters :=
  match off with
  | 0x10 => { k with huntDrop := 0 }
  | 0x14 => { k with env := 0 }
  | 0x18 => { k with frameOk := 0 }
  | 0x1C => { k with badSync := 0 }
  | 0x20 => { k with cs1Bad := 0 }
  | 0x24 => { k with cs2Bad := 0 }
  | 0x28 => { k with badLen := 0 }
  | 0x2C => { k with nosync := 0 }
  | 0x30 => { k with txOk := 0 }
  | 0x34 => { k with txTooLarge := 0 }
  | _ => k

/-- A write to CTRL (R247, R248): the two RW fields, then the soft reset if bit 31 is set. -/
def writeCtrl (v : Word) (s : State) : State :=
  let s1 := { s with ctrl := { s.ctrl with strict := v.getLsbD 0, rescan := v.getLsbD 1 } }
  if v.getLsbD 31 then softReset s1 else s1

/-- The sticky bits after a write of v to STATUS: write one to clear (R247). -/
def Sticky.clear (k : Sticky) (v : Word) : Sticky :=
  ⟨k.nosync && !v.getLsbD 16, k.rxReject && !v.getLsbD 17, k.csumSeen && !v.getLsbD 18⟩

/-- `write_effect(off, v)` (R247). -/
def writeEffect (off : Half) (v : Word) (s : State) : State :=
  match off.toNat with
  | 0x00 => writeCtrl v s
  | 0x04 => { s with sticky := s.sticky.clear v }
  | 0x08 => { s with ctrl := { s.ctrl with budget := v } }
  | 0x0C => s
  | n => { s with cnt := s.cnt.clear n }

/-! ### The commands -/

/-- A CSR command on an idle CTLC: a refused offset completes with IllegalCommand and changes nothing else, the snapshot
included (R242, R246, spec/60_exceptions.md R266); else the command accepts and completes in this step (R240). -/
def csrCommand (i : Instr) (off : Half) (s : State) (f : State → State) : State :=
  if s.busy .ctlc then s
  else if csrOffsetOk off then f (accept .ctlc i s)
  else raise .ctlc .illegalCommand s

/-- CSR_READ (R241). -/
def execCsrRead (off : Half) (s : State) : Host.Outcome State Fault Refusal :=
  .next (csrCommand (.csrRead off) off s
    (complete .ctlc { Response.done with rval := csrValue off s }))

/-- CSR_WRITE (R245). -/
def execCsrWrite (off : Half) (v : Word) (s : State) : Host.Outcome State Fault Refusal :=
  .next (csrCommand (.csrWrite off v) off s
    (fun s1 => complete .ctlc Response.done (writeEffect off v s1)))

end Sys2Proof.Machine
end

