-- ==== Sys2Proof/Machine/Extractor.lean ====
section
/-! DEFINITION. The frame extractor's command, EXTRACT (spec/42_frame_extractor.md R169). The function `extract` is in Flags.lean. -/

namespace Sys2Proof.Machine

/-- The response that carries a verdict: FLAGS always, topic and payload as the verdict has them (R93, R169).
A failing verdict has topic 0 and no payload. -/
def verdictResponse (v : Verdict) : Response :=
  ⟨v.status, v.cs1Bad, v.cs2Bad, 0, v.topic.setWidth 32, v.payload⟩

/-- EXTRACT (R169): the strictness is the one sampled at acceptance. -/
def execExtract (c : Channel) (data : List Byte) (s : State) : Host.Outcome State Fault Refusal :=
  .next (oneStep c (.extract c data) s
    (fun s1 => complete c (verdictResponse (extract data (s1.chan c).cfg.strict)) s1))

end Sys2Proof.Machine
end

