-- ==== Sys2Proof/Machine/Reader.lean ====
section
/-! DEFINITION. The stream reader and its resynchronization state machine: the acceptance of a pull, the receive step, envelope
completion, rescan, NoSyncFound, closure, Timeout, and the pulls RX_NEXT_ENV and RX_NEXT_FRAME (spec/43_stream_reader.md). -/

namespace Sys2Proof.Machine

/-! ### Acceptance, closure, timeout -/

/-- The acceptance of a pull (R191): SourceClosed at once while `rx_closed` (R220). -/
def pullAccept (i : Instr) (s : State) : State :=
  let s1 := accept .rxc i s
  if s.rxClosed then raise .rxc .sourceClosed s1 else s1

/-- The collected header and payload are dropped and the machine hunts (R202, R218). -/
def RxPath.toHunt (rx : RxPath) : RxPath :=
  { rx with st := .hunt, rid := 0, lenLo := 0, len := 0, buf := [] }

/-- A pending pull observes the closed source with both queues empty (R218). -/
def observeClosure (s : State) : State :=
  raise .rxc .sourceClosed { s with rxClosed := true, rx := { s.rx.toHunt with huntRun := 0 } }

/-- A pending pull holds: no input byte and an open source (R192 case 3). -/
def State.pullHolds (s : State) : Bool := s.pullPending && s.take.isNone && !s.env.srcClosed

/-- The Timeout draw of a held pull (R222): nothing of the receive state changes.
Where TIMEOUT_ENABLED is false, or no pull holds, there is no such step. -/
def timeoutStep (s : State) : State :=
  if Config.timeoutEnabled && s.pullHolds then raise .rxc .timeout s else s

/-! ### One byte -/

/-- NoSyncFound (R216): the hunt run reached the budget sampled at acceptance. -/
def noSync (s : State) : State :=
  raise .rxc .noSyncFound
    { s with
      rx := { s.rx with huntRun := 0 }
      cnt := { s.cnt with nosync := s.cnt.nosync + 1 }
      sticky := { s.sticky with nosync := true } }

/-- HUNT drops a byte that is not the sync byte (R197), and tests the budget (R216). -/
def dropByte (s : State) : State :=
  let s1 := { s with
    rx := { s.rx with huntRun := s.rx.huntRun + 1 }
    cnt := { s.cnt with huntDrop := s.cnt.huntDrop + 1 } }
  if s1.rxc.cfg.budget ≠ 0 ∧ s1.rxc.cfg.budget ≤ s1.rx.huntRun then noSync s1 else s1

/-- Envelope completion (R202): the receive registers return to HUNT and CNT_ENV counts.
What the pull then does with the robot id and the payload is `done`. -/
def envComplete (done : Byte → List Byte → State → State) (s : State) : State :=
  done s.rx.rid s.rx.buf { s with rx := s.rx.toHunt, cnt := { s.cnt with env := s.cnt.env + 1 } }

/-- One taken byte in the current state (R194, R197 to R201); the payload is complete on equality only (log entry 13). -/
def recvByte (done : Byte → List Byte → State → State) (b : Byte) (s : State) : State :=
  match s.rx.st with
  | .hunt =>
    if b = Config.sync then { s with rx := { s.rx with huntRun := 0, st := .hdrId } } else dropByte s
  | .hdrId => { s with rx := { s.rx with rid := b, st := .hdrLenLo } }
  | .hdrLenLo => { s with rx := { s.rx with lenLo := b, st := .hdrLenHi } }
  | .hdrLenHi =>
    let s1 := { s with rx := { s.rx with len := le16 s.rx.lenLo b, buf := [], st := .payload } }
    if le16 s.rx.lenLo b = 0 then envComplete done s1 else s1
  | .payload =>
    let s1 := { s with rx := { s.rx with buf := s.rx.buf ++ [b] } }
    if s.rx.buf.length + 1 = s.rx.len.toNat then envComplete done s1 else s1

/-- The receive step (R192): take a byte, observe the closure, or hold. -/
def recvStep (done : Byte → List Byte → State → State) (s : State) : State :=
  match s.take with
  | some (b, s1) => recvByte done b s1
  | none => if s.env.srcClosed then observeClosure s else s

/-! ### RX_NEXT_ENV -/

/-- The response of a completed RX_NEXT_ENV (R208). -/
def envResponse (rid : Byte) (e : List Byte) : Response :=
  { Response.done with r8 := rid, rval := BitVec.ofNat 32 e.length, data := e }

/-- RX_NEXT_ENV's completion (R208): no extraction, no rescan. -/
def envDone (rid : Byte) (e : List Byte) (s : State) : State := complete .rxc (envResponse rid e) s

/-- RX_NEXT_ENV (R207): the acceptance step on an idle RXC, a receive step while RXC executes it.
While RXC executes another command there is no move (R288, log entry 10). -/
def execRxNextEnv (s : State) : Host.Outcome State Fault Refusal :=
  match s.rxc.cmd with
  | none => .next (pullAccept .rxNextEnv s)
  | some i => if i = .rxNextEnv then .next (recvStep envDone s) else .next s

/-! ### RX_NEXT_FRAME -/

/-- The bytes a rescan puts back: the envelope after its sync byte (R213). -/
def rescanBytes (rid : Byte) (e : List Byte) : List Byte :=
  [rid, lo8 (BitVec.ofNat 16 e.length), hi8 (BitVec.ofNat 16 e.length)] ++ e

/-- The counters a verdict of RX_NEXT_FRAME changes (R209). -/
def Counters.verdict (k : Counters) (v : Verdict) : Counters :=
  { k with
    cs1Bad := if v.cs1Bad then k.cs1Bad + 1 else k.cs1Bad
    cs2Bad := if v.cs2Bad then k.cs2Bad + 1 else k.cs2Bad
    frameOk := if v.status = .ok then k.frameOk + 1 else k.frameOk
    badSync := if v.status = .badSyncOrVersion then k.badSync + 1 else k.badSync
    badLen := if v.status = .badLength then k.badLen + 1 else k.badLen }

/-- The sticky bits a verdict of RX_NEXT_FRAME sets (R209). -/
def Sticky.verdict (k : Sticky) (v : Verdict) : Sticky :=
  { k with
    csumSeen := k.csumSeen || v.cs1Bad || v.cs2Bad
    rxReject := k.rxReject || v.status != .ok }

/-- RX_NEXT_FRAME's completion (R209): extraction, counters, sticky bits, and on a reject the rescan if it was sampled on. -/
def frameDone (rid : Byte) (e : List Byte) (s : State) : State :=
  let v := extract e s.rxc.cfg.strict
  let replay := if v.status ≠ .ok ∧ s.rxc.cfg.rescan then rescanBytes rid e ++ s.rx.replay else s.rx.replay
  complete .rxc { verdictResponse v with r8 := rid }
    { s with
      rx := { s.rx with replay := replay }
      cnt := s.cnt.verdict v
      sticky := s.sticky.verdict v }

/-- RX_NEXT_FRAME (R209): the acceptance step on an idle RXC, a receive step while RXC executes it.
While RXC executes another command there is no move (R288, log entry 10). -/
def execRxNextFrame (s : State) : Host.Outcome State Fault Refusal :=
  match s.rxc.cmd with
  | none => .next (pullAccept .rxNextFrame s)
  | some i => if i = .rxNextFrame then .next (recvStep frameDone s) else .next s

end Sys2Proof.Machine
end

