-- ==== Sys2Proof/Machine/Dispatch.lean ====
section
/-! DEFINITION. exec: the meaning of each command, one arm per constructor of Instr. It is one step of the command's channel:
the acceptance step on an idle channel, a further step while the channel executes this command. -/

namespace Sys2Proof.Machine

def exec (i : Instr) (s : State) : Host.Outcome State Fault Refusal :=
  match i with
  | .csum c data => Sys2Proof.Machine.execCsum c data s
  | .build c rid topic data => Sys2Proof.Machine.execBuild c rid topic data s
  | .extract c data => Sys2Proof.Machine.execExtract c data s
  | .rxNextEnv => Sys2Proof.Machine.execRxNextEnv s
  | .rxNextFrame => Sys2Proof.Machine.execRxNextFrame s
  | .txSend rid topic data => Sys2Proof.Machine.execTxSend rid topic data s
  | .csrRead off => Sys2Proof.Machine.execCsrRead off s
  | .csrWrite off v => Sys2Proof.Machine.execCsrWrite off v s

end Sys2Proof.Machine
end

