-- ==== Sys2Proof/Machine/Agents.lean ====
section
/-! DEFINITION. One move of one agent (spec/00_scope.md R10, spec/20_memory.md R66): a channel's step decodes the placed command or
goes on with the one it executes; the other moves are the host's, the environment's and the platform's. -/

namespace Sys2Proof.Machine

/-- A step of channel `c`.
A busy channel goes on with its command; an idle one takes the placed command, decodes it (spec/30_encoding.md R89) and either
executes it or completes it with IllegalCommand (R90, spec/60_exceptions.md R266); with nothing placed there is no step. -/
def chanStep (c : Channel) (s : State) : Host.Outcome State Fault Refusal :=
  match (s.chan c).cmd with
  | some i => exec i s
  | none =>
    match (s.chan c).placed with
    | none => .next s
    | some x =>
      match decode c x with
      | .error _ => .next (raise c .illegalCommand (unplace c s))
      | .ok i => exec i (unplace c s)

/-- One move. A move that is not enabled changes nothing (log entry 1). -/
def applyMove (m : Move) (s : State) : Host.Outcome State Fault Refusal :=
  match m with
  | .chan c => chanStep c s
  | .timeout => .next (timeoutStep s)
  | .place c x => .next (hostPlace c x s)
  | .srcByte b => .next (srcDeliver b s)
  | .srcClose => .next (srcShut s)
  | .snkAccept => .next (sinkAccept s)
  | .snkClose => .next (snkShut s)
  | .powerOn => .next (powerOnReset s)

/-- The state in which the next step makes channel `c`, idle, take descriptor `x`. -/
def placeNext (c : Channel) (x : Descriptor) (s : State) : State :=
  { s.setChan c { s.chan c with placed := some x, cmd := none } with moves := .chan c :: s.moves }

end Sys2Proof.Machine
end

