-- ==== Sys2Proof/Machine/Step.lean ====
section
/-! DEFINITION. One step of the machine: the next move is drawn and made. And the placing of a table word where the next step
takes it. -/

namespace Sys2Proof.Machine

/-- One atomic step of one agent (spec/20_memory.md R66, R71). -/
def step (s : State) : Host.Outcome State Fault Refusal := applyMove s.draw.1 s.draw.2

/-- `s` with the table word's command placed on its channel, idle, and that channel's step as the next move (log entry 14). -/
def State.withFetchWord (s : State) (nbits w : Nat) : State :=
  placeNext (tableChannel w) (tableDescriptor nbits w) s

end Sys2Proof.Machine
end

