-- ==== Sys2Proof/Safety.lean ====
section
/-! DEFINITION. The terms claims use: the invariant of the block (the relations between fields of State that the spec gives), the
shapes of a step's result, and the source's reading of a byte stream. -/

namespace Sys2Proof.Machine

/-! ### The invariant -/

/-- The bytes of the partial envelope that a rescan would put back: `H ++ rx_buf` of spec/10_state.md R27. -/
def RxPath.held (rx : RxPath) : Nat :=
  match rx.st with
  | .hunt => 0
  | .hdrId => 0
  | .hdrLenLo => 1
  | .hdrLenHi => 2
  | .payload => 3 + rx.buf.length

/-- R26: in PAYLOAD fewer bytes than `rx_len` are held; in any other state none. -/
abbrev BufferRule (rx : RxPath) : Prop :=
  if rx.st = .payload then rx.buf.length < rx.len.toNat else rx.buf = []

/-- R202, R218, R291: in HUNT the header registers hold 0. -/
abbrev HeaderRule (rx : RxPath) : Prop :=
  rx.st = .hunt → rx.rid = 0 ∧ rx.lenLo = 0 ∧ rx.len = 0

/-- R214: the replay queue, with what a rescan of the partial envelope would put back, fits in REPLAY_CAP. -/
abbrev ReplayRule (rx : RxPath) : Prop :=
  rx.replay.length + rx.held ≤ 65538

/-- The envelope that a TX_SEND builds (R145); no other command has one. -/
def sendEnvelope (i : Instr) : Option (List Byte) :=
  match i with
  | .csum _ _ => none
  | .build _ _ _ _ => none
  | .extract _ _ => none
  | .rxNextEnv => none
  | .rxNextFrame => none
  | .txSend rid topic data => build topic rid data
  | .csrRead _ => none
  | .csrWrite _ _ => none

/-- R10, R145, R240: over several steps RXC executes only pulls, TXC only a TX_SEND whose envelope waits in `tx_env`, and CTLC
nothing. -/
abbrev CommandRule (s : State) : Prop :=
  s.rxc.cmd.all isPull = true ∧ s.ctlc.cmd = none ∧
    s.txc.cmd.all (fun i => sendEnvelope i == some s.txEnv) = true ∧ (s.txc.cmd = none → s.txEnv = [])

/-- R11, R87: a placed command is one a host can present, and a busy channel has none placed. -/
abbrev PlacedRule (x : Chan) : Prop :=
  x.placed.all Descriptor.wf = true ∧ (x.cmd.isSome = true → x.placed = none)

/-- R38, R39, R218, R220: a latched closure means a closed environment and an idle, empty path. -/
abbrev ClosureRule (s : State) : Prop :=
  (s.rxClosed = true → s.env.srcClosed = true ∧ s.env.srcQ = [] ∧ s.rx.replay = [] ∧ s.rx.st = .hunt ∧ s.rxc.cmd = none) ∧
  (s.txClosed = true → s.env.snkClosed = true ∧ s.txc.cmd = none)

/-- The invariant of the block. -/
abbrev BlockInv (s : State) : Prop :=
  BufferRule s.rx ∧ HeaderRule s.rx ∧ ReplayRule s.rx ∧ CommandRule s ∧
    PlacedRule s.rxc ∧ PlacedRule s.txc ∧ PlacedRule s.ctlc ∧ ClosureRule s

/-! ### Shapes of a result -/

/-- `s` after a command on channel `c` was accepted and completed in one step with response `r`: the snapshot is taken and the
response returned, and nothing else changes. -/
def State.answered (s : State) (c : Channel) (r : Response) : State :=
  s.setChan c { placed := (s.chan c).placed, cmd := none, cfg := s.ctrl, resp := (s.chan c).resp ++ [r] }

/-- `s` after the command that channel `c` executes completed with response `r`: nothing else changes. -/
def State.returned (s : State) (c : Channel) (r : Response) : State :=
  s.setChan c { placed := (s.chan c).placed, cmd := none, cfg := (s.chan c).cfg, resp := (s.chan c).resp ++ [r] }

/-- `s` with the command `i` accepted on channel `c`: busy, with the snapshot taken. -/
def State.accepted (s : State) (c : Channel) (i : Instr) : State :=
  s.setChan c { placed := (s.chan c).placed, cmd := some i, cfg := s.ctrl, resp := (s.chan c).resp }

/-- The receive path in HUNT with nothing held but the replay queue and the hunt run. -/
def RxPath.idle (replay : List Byte) (huntRun : Word) : RxPath := ⟨.hunt, 0, 0, 0, [], replay, huntRun⟩

/-- The step that `s` makes next resets the block: power-on reset, or CTLC writes CTRL with bit 31 set (R290). -/
def State.resetsNext (s : State) : Prop :=
  s.draw.1 = .powerOn ∨
    s.draw.1 = .chan .ctlc ∧ ∃ x v, s.ctlc.placed = some x ∧ decode .ctlc x = .ok (.csrWrite 0 v) ∧ v.getLsbD 31 = true

/-- The receive step of `s` takes its byte, leaving `s1`, and completes an envelope with payload `e` (R194, R200, R201): the last
payload byte, or the high length byte of an empty envelope. -/
def CompletesEnvelope (s s1 : State) (e : List Byte) : Prop :=
  ∃ b, s.take = some (b, s1) ∧
    ((s.rx.st = .payload ∧ s.rx.buf.length + 1 = s.rx.len.toNat ∧ e = s.rx.buf ++ [b]) ∨
      (s.rx.st = .hdrLenHi ∧ s.rx.lenLo = 0 ∧ b = 0 ∧ e = []))

/-- A channel after a reset: idle, and a command that was pending on it has completed with Aborted (R293). -/
def Chan.afterReset (x : Chan) : Chan :=
  { placed := x.placed
    cmd := none
    cfg := x.cfg
    resp := if x.cmd.isSome then x.resp ++ [⟨.aborted, false, false, 0, 0, []⟩] else x.resp }

/-- The value each readable offset has (R243), STATUS written as the sum of its fields. -/
def csrTable (s : State) : List (Half × Word) :=
  [(0x00, BitVec.ofNat 32 (s.ctrl.strict.toNat + 2 * s.ctrl.rescan.toNat)),
   (0x04, BitVec.ofNat 32
      ((rxStateCode s.rx.st).toNat + 2 ^ 3 * s.rxc.cmd.isSome.toNat + 2 ^ 4 * s.txc.cmd.isSome.toNat
        + 2 ^ 8 * s.rxClosed.toNat + 2 ^ 9 * s.txClosed.toNat + 2 ^ 16 * s.sticky.nosync.toNat
        + 2 ^ 17 * s.sticky.rxReject.toNat + 2 ^ 18 * s.sticky.csumSeen.toNat)),
   (0x08, s.ctrl.budget),
   (0x0C, BitVec.ofNat 32 s.rx.replay.length),
   (0x10, s.cnt.huntDrop),
   (0x14, s.cnt.env),
   (0x18, s.cnt.frameOk),
   (0x1C, s.cnt.badSync),
   (0x20, s.cnt.cs1Bad),
   (0x24, s.cnt.cs2Bad),
   (0x28, s.cnt.badLen),
   (0x2C, s.cnt.nosync),
   (0x30, s.cnt.txOk),
   (0x34, s.cnt.txTooLarge)]

/-! ### The source's reader -/

/-- The source's `next_envelope()` on a whole stream (spec/43_stream_reader.md R204): skip to the first 0xFF, read the header, slice
the payload, leave the rest; none where the stream ends before. -/
def sourceEnvelope (stream : List Byte) : Option (Byte × List Byte × List Byte) :=
  match stream.dropWhile (fun b => b != 0xFF) with
  | _ :: rid :: lo :: hi :: rest =>
    if rest.length < lo.toNat + 256 * hi.toNat then none
    else some (rid, rest.take (lo.toNat + 256 * hi.toNat), rest.drop (lo.toNat + 256 * hi.toNat))
  | _ => none

end Sys2Proof.Machine
end

