-- ==== Sys2Proof/Certificates/Slice0/Obligations.lean ====
section
/-! DEFINITION. The statements for the provers: what the numbered rules of spec/ say the commands and the block do. An equation for
`exec` gives the whole next state, so it says the result, the completion and the frame at once. -/

/-! Two things in the equations are the model's and not a rule's: the latch of placed commands is left as it is (log entry 4) and
responses are kept in a list per channel (log entry 5). That an accepted command leaves its snapshot behind is log entry 9's reading. -/

open Sys2Proof Sys2Proof.Machine

/-! ### Checksum (spec/40_checksum.md) -/

/-- R120 and R121: the checksum is 255 minus the sum mod 256, the complement of the sum's low byte, and what a byte-serial
accumulator over the bytes in any order gives. -/
def Obligations.ChecksumForms : Prop :=
  ∀ B : List Byte,
    (checksum B).toNat = 255 - (B.map BitVec.toNat).sum % 256 ∧
    checksum B = BitVec.ofNat 8 ((B.map BitVec.toNat).sum % 256) ^^^ 0xFF ∧
    ∀ B' : List Byte, B'.Perm B → checksum B = 0xFF - B'.foldl (fun acc b => acc + b) 0

/-- R123: the validator's two forms. -/
def Obligations.ChecksumValidator : Prop :=
  ∀ (B : List Byte) (c : Byte),
    (csumOk B c = true ↔ checksum B = c) ∧
    (csumOk B c = true ↔ ((B.map BitVec.toNat).sum + c.toNat) % 256 = 255)

/-- R124: the properties of the checksum, the detection of one changed byte and the limit of detection among them. -/
def Obligations.ChecksumDetection : Prop :=
  (∀ B : List Byte, ((B.map BitVec.toNat).sum + (checksum B).toNat) % 256 = 255) ∧
  checksum [] = 0xFF ∧
  (∀ A B : List Byte,
    (checksum (A ++ B)).toNat = 255 - ((A.map BitVec.toNat).sum + (B.map BitVec.toNat).sum) % 256) ∧
  (∀ A B : List Byte, A.Perm B → checksum A = checksum B) ∧
  (∀ (B : List Byte) (k : Nat) (b : Byte), k < B.length → byteAt B k ≠ b → checksum (B.set k b) ≠ checksum B) ∧
  (∀ A B : List Byte, (A.map BitVec.toNat).sum % 256 = (B.map BitVec.toNat).sum % 256 → checksum A = checksum B) ∧
  (∀ (B : List Byte) (c : Byte), c ≠ checksum B → csumOk B c = false)

/-- From R122, R89 and R271: CSUM on an idle channel completes with the checksum of its data lane and changes nothing else; every channel decodes OP
0x01 with A8 and A16 zero to it, and refuses it otherwise. The snapshot a completed command leaves (log entry 9) and completing in the
acceptance step (log entry 16) are the model's reading, DEDUCED. -/
def Obligations.CsumCompletes : Prop :=
  (∀ (c : Channel) (data : List Byte) (s : State), (s.chan c).cmd = none →
    exec (.csum c data) s = .next (s.answered c
      ⟨.ok, false, false, BitVec.ofNat 8 (255 - (data.map BitVec.toNat).sum % 256), 0, []⟩)) ∧
  (∀ (c : Channel) (w : Word) (data : List Byte), fieldOp w = 0x01 →
    (fieldA8 w = 0 ∧ fieldA16 w = 0 → decode c ⟨w, data⟩ = .ok (.csum c data)) ∧
    (¬(fieldA8 w = 0 ∧ fieldA16 w = 0) → ∃ e, decode c ⟨w, data⟩ = .error e))

/-! ### Builder and transmit path (spec/41_frame_builder.md) -/

/-- R140 and R141: a payload of more than 65527 bytes is not framed; any other gives the envelope, byte for byte, and its two
length fields hold in 16 bits. -/
def Obligations.EnvelopeComposition : Prop :=
  ∀ (topic : Half) (rid : Byte) (P : List Byte),
    (65527 < P.length → build topic rid P = none) ∧
    (P.length ≤ 65527 →
      ∃ m t : Half, m.toNat = P.length ∧ t.toNat = P.length + 8 ∧
        build topic rid P = some ([0xFF, rid, lo8 t, hi8 t]
          ++ [0xFF, 0xFE, lo8 m, hi8 m, checksum [lo8 m, hi8 m], lo8 topic, hi8 topic]
          ++ P ++ [checksum ([lo8 topic, hi8 topic] ++ P)]))

/-- R142: the properties of every built envelope. -/
def Obligations.EnvelopeProperties : Prop :=
  ∀ (topic : Half) (rid : Byte) (P E : List Byte), build topic rid P = some E →
    E.length = P.length + 12 ∧ byteAt E 0 = 0xFF ∧ byteAt E 1 = rid ∧
    (le16 (byteAt E 2) (byteAt E 3)).toNat = P.length + 8 ∧
    (∀ F, F = E.drop 4 →
      byteAt F 0 = 0xFF ∧ byteAt F 1 = 0xFE ∧ (le16 (byteAt F 2) (byteAt F 3)).toNat = P.length ∧
      byteAt F 4 = checksum (slice F 2 4) ∧ le16 (byteAt F 5) (byteAt F 6) = topic ∧
      slice F 7 (7 + P.length) = P ∧ byteAt F (7 + P.length) = checksum (slice F 5 (7 + P.length))) ∧
    ((byteAt E 6).toNat + (byteAt E 7).toNat + (byteAt E 8).toNat) % 256 = 255 ∧
    ((E.drop 9).map BitVec.toNat).sum % 256 = 255

/-- From R143, R89 and R271: BUILD on an idle channel completes with the envelope, or with ValueTooLarge, and changes nothing else; every channel
decodes OP 0x02 to it with robot_id A8 and topic A16. The snapshot left (log entry 9) and completing in the acceptance step (log entry 16)
are the model's reading, DEDUCED. -/
def Obligations.BuildCompletes : Prop :=
  (∀ (c : Channel) (rid : Byte) (topic : Half) (data : List Byte) (s : State), (s.chan c).cmd = none →
    (data.length ≤ 65527 → ∃ e, build topic rid data = some e ∧ e.length = data.length + 12 ∧
      exec (.build c rid topic data) s = .next (s.answered c ⟨.ok, false, false, 0, 0, e⟩)) ∧
    (65527 < data.length →
      exec (.build c rid topic data) s = .next (s.answered c ⟨.valueTooLarge, false, false, 0, 0, []⟩))) ∧
  (∀ (c : Channel) (w : Word) (data : List Byte), fieldOp w = 0x02 →
    decode c ⟨w, data⟩ = .ok (.build c (fieldA8 w) (fieldA16 w) data))

/-- From R144, R143, R145 and R271: BUILD and TX_SEND refuse every payload of more than 65527 bytes, whatever its length is mod 65536;
TX_SEND counts it. The snapshot left (log entry 9) and BUILD's completing in the acceptance step (log entry 16) are the model's reading, DEDUCED. -/
def Obligations.OversizedPayloadRefused : Prop :=
  ∀ (c : Channel) (rid : Byte) (topic : Half) (data : List Byte) (s : State), 65527 < data.length →
    ((s.chan c).cmd = none →
      exec (.build c rid topic data) s = .next (s.answered c ⟨.valueTooLarge, false, false, 0, 0, []⟩)) ∧
    (s.txc.cmd = none →
      exec (.txSend rid topic data) s =
        .next { s.answered .txc ⟨.valueTooLarge, false, false, 0, 0, []⟩ with
          cnt := { s.cnt with txTooLarge := s.cnt.txTooLarge + 1 } })

/-- From R145 and R147: TX_SEND on an idle TXC, with a payload that fits and no latched closure, holds the built envelope for the sink and
changes nothing else; an accepting sink step then completes it. The snapshot left after that is log entry 9's, DEDUCED. -/
def Obligations.SendBuildsThenCompletes : Prop :=
  ∀ (rid : Byte) (topic : Half) (data : List Byte) (s : State),
    s.txc.cmd = none → s.txClosed = false → data.length ≤ 65527 →
    ∃ e t, build topic rid data = some e ∧
      exec (.txSend rid topic data) s = .next t ∧
      t = { s.accepted .txc (.txSend rid topic data) with txEnv := e } ∧
      (s.env.snkClosed = false →
        applyMove .snkAccept t = .next { s.answered .txc ⟨.ok, false, false, 0, 0, []⟩ with
          txEnv := []
          env := { s.env with snkLog := s.env.snkLog ++ e }
          cnt := { s.cnt with txOk := s.cnt.txOk + 1 } })

/-- R147: an accepting sink step appends the whole of `tx_env` and completes the waiting TX_SEND; where none waits, or the sink is
closed, it changes nothing. -/
def Obligations.SinkAcceptsWhole : Prop :=
  ∀ (s : State) (rid : Byte) (topic : Half) (data : List Byte),
    (s.txc.cmd = some (.txSend rid topic data) → s.env.snkClosed = false →
      applyMove .snkAccept s = .next { s.returned .txc ⟨.ok, false, false, 0, 0, []⟩ with
        env := { s.env with snkLog := s.env.snkLog ++ s.txEnv }
        txEnv := []
        cnt := { s.cnt with txOk := s.cnt.txOk + 1 } }) ∧
    (s.txc.cmd = none ∨ s.env.snkClosed = true → applyMove .snkAccept s = .next s)

/-- From R148, R145 and R290: a waiting TX_SEND that sees the sink closed completes with SinkClosed and latches the closure; the latch lasts
until reset; while it lasts, TX_SEND with a payload that fits completes with SinkClosed at once, and the snapshot it leaves is log entry 9's,
DEDUCED. -/
def Obligations.SinkClosureReported : Prop :=
  (∀ (s : State) (rid : Byte) (topic : Half) (data : List Byte),
    s.txc.cmd = some (.txSend rid topic data) → s.env.snkClosed = true →
    exec (.txSend rid topic data) s =
      .next { s.returned .txc ⟨.sinkClosed, false, false, 0, 0, []⟩ with txClosed := true, txEnv := [] }) ∧
  (∀ s t : State, BlockInv s → s.txClosed = true → ¬s.resetsNext → step s = .next t → t.txClosed = true) ∧
  (∀ (s : State) (rid : Byte) (topic : Half) (data : List Byte),
    s.txc.cmd = none → s.txClosed = true → data.length ≤ 65527 →
    exec (.txSend rid topic data) s = .next (s.answered .txc ⟨.sinkClosed, false, false, 0, 0, []⟩))

/-- R146: a waiting TX_SEND holds its envelope at every step but an accepting step of an open sink, a TXC step that sees the sink
closed, and a reset (R293); in particular a Timeout draw does not end it. -/
def Obligations.SendHoldLifted : Prop :=
  ∀ (s t : State) (rid : Byte) (topic : Half) (data : List Byte),
    BlockInv s → s.txc.cmd = some (.txSend rid topic data) → step s = .next t →
    build topic rid data = some s.txEnv ∧
    ((t.txc = s.txc ∧ t.txEnv = s.txEnv) ∨ (s.draw.1 = .snkAccept ∧ s.env.snkClosed = false) ∨
      (s.draw.1 = .chan .txc ∧ s.env.snkClosed = true) ∨ s.resetsNext)

/-- R67: the sink's log grows only by a whole waiting envelope, in the sink's accepting step while a TX_SEND waits; the source queue
shrinks only by its head byte, in a step of RXC while a pull is pending. -/
def Obligations.OnlyPathsTouchStreams : Prop :=
  ∀ s t : State, BlockInv s → step s = .next t →
    (t.env.snkLog = s.env.snkLog ∨
      (s.draw.1 = .snkAccept ∧ s.env.snkClosed = false ∧
        (∃ rid topic data, s.txc.cmd = some (.txSend rid topic data)) ∧ t.env.snkLog = s.env.snkLog ++ s.txEnv)) ∧
    (t.env.srcQ = s.env.srcQ ∨
      (∃ b, s.draw.1 = .srcByte b ∧ s.env.srcClosed = false ∧ t.env.srcQ = s.env.srcQ ++ [b]) ∨
      (s.draw.1 = .chan .rxc ∧ s.pullPending = true ∧ ∃ b, s.env.srcQ = b :: t.env.srcQ))

/-! ### Extractor (spec/42_frame_extractor.md) -/

/-- R160 and R161: the extractor's tests in their order, each with the flags it leaves; strict mode sets at most one flag, legacy mode
can set both. -/
def Obligations.ExtractInOrder : Prop :=
  (∀ (F : List Byte) (strict : Bool) (m : Nat), m = (le16 (byteAt F 2) (byteAt F 3)).toNat →
    ∀ cs1 cs2 : Bool,
      (cs1 = true ↔ checksum (slice F 2 4) ≠ byteAt F 4) →
      (cs2 = true ↔ checksum (slice F 5 (7 + m)) ≠ byteAt F (7 + m)) →
      extract F strict =
        if F.length < 8 then ⟨.badLength, false, false, 0, []⟩
        else if byteAt F 0 ≠ 0xFF ∨ byteAt F 1 ≠ 0xFE then ⟨.badSyncOrVersion, false, false, 0, []⟩
        else if cs1 = true ∧ strict = true then ⟨.checksumMismatch, true, false, 0, []⟩
        else if F.length ≠ m + 8 then ⟨.badLength, cs1, false, 0, []⟩
        else if cs2 = true ∧ strict = true then ⟨.checksumMismatch, cs1, true, 0, []⟩
        else ⟨.ok, cs1, cs2, le16 (byteAt F 5) (byteAt F 6), slice F 7 (7 + m)⟩) ∧
  (∀ F : List Byte, ¬((extract F true).cs1Bad = true ∧ (extract F true).cs2Bad = true)) ∧
  (∃ F : List Byte, (extract F false).cs1Bad = true ∧ (extract F false).cs2Bad = true)

/-- R167: what an OK verdict says of the frame, with the flag of each checksum that does not match; strict mode leaves no flag. -/
def Obligations.ExtractSuccess : Prop :=
  ∀ (F : List Byte) (strict : Bool) (m : Nat), m = (le16 (byteAt F 2) (byteAt F 3)).toNat →
    (extract F strict).status = .ok →
    F.length = m + 8 ∧ (extract F strict).topic = le16 (byteAt F 5) (byteAt F 6) ∧
    (extract F strict).payload = slice F 7 (7 + m) ∧ (extract F strict).payload.length = m ∧
    ((extract F strict).cs1Bad = true ↔ checksum (slice F 2 4) ≠ byteAt F 4) ∧
    ((extract F strict).cs2Bad = true ↔ checksum (slice F 5 (7 + m)) ≠ byteAt F (7 + m)) ∧
    (strict = true → (extract F strict).cs1Bad = false ∧ (extract F strict).cs2Bad = false)

/-- From R168: legacy mode never answers ChecksumMismatch, answers BadLength and BadSyncOrVersion for whatever strict mode answers them
for, and agrees with strict mode on every frame strict mode accepts. -/
def Obligations.LegacyExtraction : Prop :=
  ∀ F : List Byte,
    (extract F false).status ≠ .checksumMismatch ∧
    ((extract F true).status ≠ .checksumMismatch → extract F false = extract F true) ∧
    ((extract F true).status = .checksumMismatch →
      (extract F false).cs1Bad = true ∨ (extract F false).cs2Bad = true)

/-- R170: what the builder frames, the extractor gives back, in either mode. -/
def Obligations.ExtractOfBuild : Prop :=
  ∀ (topic : Half) (rid : Byte) (P E : List Byte) (strict : Bool), P.length ≤ 65527 →
    build topic rid P = some E →
    extract (slice E 4 (P.length + 12)) strict = ⟨.ok, false, false, topic, P⟩

/-- R171: a built inner frame with exactly one changed byte is refused in strict mode: a marker by BadSyncOrVersion, a byte of
`msg_length` or checksum_1 by checksum_1, any later byte by checksum_2; two changed bytes may pass. -/
def Obligations.SingleByteDetection : Prop :=
  (∀ (topic : Half) (rid : Byte) (P E F : List Byte) (k : Nat) (b : Byte),
    build topic rid P = some E → F = E.drop 4 → k < F.length → byteAt F k ≠ b →
    extract (F.set k b) true =
      if k < 2 then ⟨.badSyncOrVersion, false, false, 0, []⟩
      else if k < 5 then ⟨.checksumMismatch, true, false, 0, []⟩
      else ⟨.checksumMismatch, false, true, 0, []⟩) ∧
  (∃ (topic : Half) (rid : Byte) (P Q E : List Byte) (j k : Nat) (a b : Byte), build topic rid P = some E ∧ j ≠ k ∧ P ≠ Q ∧
    extract (((E.drop 4).set j a).set k b) true = ⟨.ok, false, false, topic, Q⟩)

/-- From R169, R89 and R271: EXTRACT on an idle channel completes with the verdict, by the strictness at acceptance, and changes nothing else;
every channel decodes OP 0x03 with A8 and A16 zero to it, and refuses it otherwise. The snapshot left (log entry 9) and completing in the
acceptance step (log entry 16) are the model's reading, DEDUCED. -/
def Obligations.ExtractCompletes : Prop :=
  (∀ (c : Channel) (data : List Byte) (s : State) (v : Verdict),
    (s.chan c).cmd = none → v = Machine.extract data s.ctrl.strict →
    exec (.extract c data) s = .next (s.answered c
      (if v.status = .ok then ⟨.ok, v.cs1Bad, v.cs2Bad, 0, v.topic.setWidth 32, v.payload⟩
       else ⟨v.status, v.cs1Bad, v.cs2Bad, 0, 0, []⟩))) ∧
  (∀ (c : Channel) (w : Word) (data : List Byte), fieldOp w = 0x03 →
    (fieldA8 w = 0 ∧ fieldA16 w = 0 → decode c ⟨w, data⟩ = .ok (.extract c data)) ∧
    (¬(fieldA8 w = 0 ∧ fieldA16 w = 0) → ∃ e, decode c ⟨w, data⟩ = .error e))

/-! ### Stream reader (spec/43_stream_reader.md) -/

/-- R191: the acceptance of a pull on an idle RXC takes the snapshot and leaves it pending, or, with the closure latched, completes it
with SourceClosed. -/
def Obligations.PullAccepted : Prop :=
  ∀ (i : Instr) (s : State), i = .rxNextEnv ∨ i = .rxNextFrame → s.rxc.cmd = none →
    (s.rxClosed = false → exec i s = .next (s.accepted .rxc i)) ∧
    (s.rxClosed = true → exec i s = .next (s.answered .rxc ⟨.sourceClosed, false, false, 0, 0, []⟩))

/-- R196: the next input byte is the head of `rx_replay`, else the head of `src_q`, removed from its queue. -/
def Obligations.TakeOrder : Prop :=
  ∀ (s : State) (b : Byte) (q : List Byte),
    (s.rx.replay = b :: q → s.take = some (b, { s with rx := { s.rx with replay := q } })) ∧
    (s.rx.replay = [] → s.env.srcQ = b :: q → s.take = some (b, { s with env := { s.env with srcQ := q } })) ∧
    (s.rx.replay = [] → s.env.srcQ = [] → s.take = none)

/-- R197 and R216: in HUNT the sync byte starts a header; any other byte is dropped and counted, and at the sampled budget completes the
pull with NoSyncFound. -/
def Obligations.HuntStep : Prop :=
  ∀ (i : Instr) (s s1 : State) (b : Byte), i = .rxNextEnv ∨ i = .rxNextFrame → s.rxc.cmd = some i →
    s.rx.st = .hunt → s.take = some (b, s1) →
    (b = 0xFF → exec i s = .next { s1 with rx := { s1.rx with st := .hdrId, huntRun := 0 } }) ∧
    (b ≠ 0xFF → ¬(s.rxc.cfg.budget ≠ 0 ∧ s.rxc.cfg.budget ≤ s.rx.huntRun + 1) →
      exec i s = .next { s1 with
        rx := { s1.rx with huntRun := s.rx.huntRun + 1 }
        cnt := { s1.cnt with huntDrop := s.cnt.huntDrop + 1 } }) ∧
    (b ≠ 0xFF → s.rxc.cfg.budget ≠ 0 ∧ s.rxc.cfg.budget ≤ s.rx.huntRun + 1 →
      exec i s = .next { s1.returned .rxc ⟨.noSyncFound, false, false, 0, 0, []⟩ with
        rx := { s1.rx with huntRun := 0 }
        cnt := { s1.cnt with huntDrop := s.cnt.huntDrop + 1, nosync := s.cnt.nosync + 1 }
        sticky := { s1.sticky with nosync := true } })

/-- R198 and R199: the byte after the sync byte is the robot id and the next the low byte of the length, whatever their values. -/
def Obligations.HeaderBytesTaken : Prop :=
  ∀ (i : Instr) (s s1 : State) (b : Byte), i = .rxNextEnv ∨ i = .rxNextFrame → s.rxc.cmd = some i →
    s.take = some (b, s1) →
    (s.rx.st = .hdrId → exec i s = .next { s1 with rx := { s1.rx with rid := b, st := .hdrLenLo } }) ∧
    (s.rx.st = .hdrLenLo → exec i s = .next { s1 with rx := { s1.rx with lenLo := b, st := .hdrLenHi } })

/-- From R194, R200 and R201: a nonzero length starts the payload; a payload byte before the last is collected, whatever its value. -/
def Obligations.PayloadCollected : Prop :=
  ∀ (i : Instr) (s s1 : State) (b : Byte), i = .rxNextEnv ∨ i = .rxNextFrame → s.rxc.cmd = some i →
    s.take = some (b, s1) →
    (s.rx.st = .hdrLenHi → le16 s.rx.lenLo b ≠ 0 →
      exec i s = .next { s1 with rx := { s1.rx with len := le16 s.rx.lenLo b, buf := [], st := .payload } }) ∧
    (s.rx.st = .payload → s.rx.buf.length + 1 < s.rx.len.toNat →
      exec i s = .next { s1 with rx := { s1.rx with buf := s.rx.buf ++ [b] } })

/-- R208, with the register writes of R202: the step that completes an envelope completes RX_NEXT_ENV with its robot id, length and bytes,
unvalidated; no reject counter changes and nothing is replayed. -/
def Obligations.EnvelopeReturned : Prop :=
  ∀ (s s1 : State) (e : List Byte), s.rxc.cmd = some .rxNextEnv → CompletesEnvelope s s1 e →
    exec .rxNextEnv s = .next { s1.returned .rxc ⟨.ok, false, false, s.rx.rid, BitVec.ofNat 32 e.length, e⟩ with
      rx := RxPath.idle s1.rx.replay s1.rx.huntRun
      cnt := { s1.cnt with env := s1.cnt.env + 1 } }

/-- From R209: RX_NEXT_FRAME on an envelope whose frame extracts OK returns its robot id, flags, topic and payload, and counts it. -/
def Obligations.FrameAccepted : Prop :=
  ∀ (s s1 : State) (e : List Byte) (v : Verdict), s.rxc.cmd = some .rxNextFrame → CompletesEnvelope s s1 e →
    v = Machine.extract e s.rxc.cfg.strict → v.status = .ok →
    exec .rxNextFrame s = .next
      { s1.returned .rxc ⟨.ok, v.cs1Bad, v.cs2Bad, s.rx.rid, v.topic.setWidth 32, v.payload⟩ with
        rx := RxPath.idle s1.rx.replay s1.rx.huntRun
        cnt := { s1.cnt with
          env := s1.cnt.env + 1
          frameOk := s1.cnt.frameOk + 1
          cs1Bad := s1.cnt.cs1Bad + BitVec.ofNat 32 v.cs1Bad.toNat
          cs2Bad := s1.cnt.cs2Bad + BitVec.ofNat 32 v.cs2Bad.toNat }
        sticky := { s1.sticky with csumSeen := s1.sticky.csumSeen || v.cs1Bad || v.cs2Bad } }

/-- From R209, R212 and R213: RX_NEXT_FRAME on an envelope whose frame is rejected returns the status, the robot id and the flags, counts the
reject, sets RX_REJECT, and replays the envelope after its sync byte exactly when the sampled RESCAN is 1. -/
def Obligations.FrameRejected : Prop :=
  ∀ (s s1 : State) (e : List Byte) (v : Verdict), s.rxc.cmd = some .rxNextFrame → CompletesEnvelope s s1 e →
    v = Machine.extract e s.rxc.cfg.strict → v.status ≠ .ok →
    exec .rxNextFrame s = .next
      { s1.returned .rxc ⟨v.status, v.cs1Bad, v.cs2Bad, s.rx.rid, 0, []⟩ with
        rx := RxPath.idle
          (if s.rxc.cfg.rescan then
            [s.rx.rid, lo8 (BitVec.ofNat 16 e.length), hi8 (BitVec.ofNat 16 e.length)] ++ e ++ s1.rx.replay
           else s1.rx.replay) s1.rx.huntRun
        cnt := { s1.cnt with
          env := s1.cnt.env + 1
          badSync := s1.cnt.badSync + (if v.status = .badSyncOrVersion then 1 else 0)
          badLen := s1.cnt.badLen + (if v.status = .badLength then 1 else 0)
          cs1Bad := s1.cnt.cs1Bad + BitVec.ofNat 32 v.cs1Bad.toNat
          cs2Bad := s1.cnt.cs2Bad + BitVec.ofNat 32 v.cs2Bad.toNat }
        sticky := { s1.sticky with rxReject := true, csumSeen := s1.sticky.csumSeen || v.cs1Bad || v.cs2Bad } }

/-- R213: a reject with RESCAN sampled 1 puts the envelope's bytes after its sync byte before the rest of the replay queue, the length field
exact, and the machine hunts; RX_NEXT_ENV never rescans: its steps leave the replay queue or take its head. -/
def Obligations.RescanReplays : Prop :=
  (∀ (s s1 : State) (e : List Byte), s.rxc.cmd = some .rxNextFrame → CompletesEnvelope s s1 e →
    s.rxc.cfg.rescan = true → (Machine.extract e s.rxc.cfg.strict).status ≠ .ok →
    ∃ t, exec .rxNextFrame s = .next t ∧
      t.rx.replay =
        [s.rx.rid, lo8 (BitVec.ofNat 16 e.length), hi8 (BitVec.ofNat 16 e.length)] ++ e ++ s1.rx.replay ∧
      (BitVec.ofNat 16 e.length).toNat = e.length ∧ t.rx.st = .hunt ∧ t.env = s1.env ∧ t.rxc.cmd = none) ∧
  (∀ s t : State, s.rxc.cmd = some .rxNextEnv → exec .rxNextEnv s = .next t →
    t.rx.replay = s.rx.replay ∨ ∃ b, s.rx.replay = b :: t.rx.replay)

/-- R210: without rescan, RX_NEXT_FRAME and RX_NEXT_ENV on the same envelope leave the same receive state and robot id, and RX_NEXT_FRAME's
status, flags, RVAL and data are those of EXTRACT on the data of RX_NEXT_ENV; the rest differs only in counters and sticky bits. -/
def Obligations.FrameIsEnvThenExtract : Prop :=
  ∀ (s s1 t u : State) (e : List Byte) (c : Channel) (x : State), s.rxc.cmd = some .rxNextFrame →
    s.rxc.cfg.rescan = false → CompletesEnvelope s s1 e →
    exec .rxNextFrame s = .next t →
    exec .rxNextEnv { s with rxc := { s.rxc with cmd := some .rxNextEnv } } = .next u →
    (x.chan c).cmd = none → x.ctrl.strict = s.rxc.cfg.strict →
    ∃ rf re rx : Response,
      t.rxc.resp = s.rxc.resp ++ [rf] ∧ u.rxc.resp = s.rxc.resp ++ [re] ∧ re.data = e ∧
      exec (.extract c re.data) x = .next (x.answered c rx) ∧
      rf = { rx with r8 := s.rx.rid } ∧ re.r8 = s.rx.rid ∧ t.rx = u.rx ∧
      { t with cnt := u.cnt, sticky := u.sticky, rxc := u.rxc } = u

/-- R218: a pending pull that finds both queues empty and the source closed completes with SourceClosed, latches the closure and drops the
partial envelope. -/
def Obligations.ClosureObserved : Prop :=
  ∀ (i : Instr) (s : State), i = .rxNextEnv ∨ i = .rxNextFrame → s.rxc.cmd = some i →
    s.rx.replay = [] → s.env.srcQ = [] → s.env.srcClosed = true →
    exec i s = .next { s.returned .rxc ⟨.sourceClosed, false, false, 0, 0, []⟩ with
      rxClosed := true
      rx := RxPath.idle [] 0 }

/-- From R192 and R193: a held pull has no step of its own; every step keeps it and its receive state but a Timeout draw and a reset. -/
def Obligations.HeldPullWaits : Prop :=
  ∀ (i : Instr) (s : State), i = .rxNextEnv ∨ i = .rxNextFrame → s.rxc.cmd = some i →
    s.rx.replay = [] → s.env.srcQ = [] → s.env.srcClosed = false →
    exec i s = .next s ∧
    ∀ t, BlockInv s → step s = .next t →
      (t.rxc = s.rxc ∧ t.rx = s.rx) ∨ (s.draw.1 = .timeout ∧ Config.timeoutEnabled = true) ∨ s.resetsNext

/-- R222: the Timeout draw ends a held pull with Timeout and changes nothing else where TIMEOUT_ENABLED is true; where it is false, or no pull
holds, it changes nothing. -/
def Obligations.TimeoutDraw : Prop :=
  ∀ (i : Instr) (s : State), i = .rxNextEnv ∨ i = .rxNextFrame → s.rxc.cmd = some i →
    (s.rx.replay = [] → s.env.srcQ = [] → s.env.srcClosed = false →
      applyMove .timeout s = .next
        (if Config.timeoutEnabled = true then s.returned .rxc ⟨.timeout, false, false, 0, 0, []⟩ else s)) ∧
    (s.rx.replay ≠ [] ∨ s.env.srcQ ≠ [] ∨ s.env.srcClosed = true → applyMove .timeout s = .next s)

/-- R214: along every run from a state of the invariant the replay queue stays within 65538 bytes; and the payload buffer within 65535
(R26). -/
def Obligations.ReplayNeverOverflows : Prop :=
  ∀ (n : Nat) (s t : State), BlockInv s → Host.Core.run core n s = .next t →
    t.rx.replay.length ≤ 65538 ∧ t.rx.buf.length ≤ 65535

/-- From R204: from HUNT with nothing to replay and no budget, as many RXC steps as the source's reader consumes bytes return what the
source's reader returns and leave the rest of the stream. -/
def Obligations.ReaderMatchesSource : Prop :=
  ∀ (s : State) (rid : Byte) (e rest : List Byte) (ms : List Move),
    s.rxc.cmd = some .rxNextEnv → s.rxc.cfg.budget = 0 → s.rx.st = .hunt → s.rx.replay = [] →
    sourceEnvelope s.env.srcQ = some (rid, e, rest) →
    s.moves = List.replicate (s.env.srcQ.length - rest.length) (.chan .rxc) ++ ms →
    ∃ t, Host.Core.run core (s.env.srcQ.length - rest.length) s = .next t ∧
      t.moves = ms ∧ t.env.srcQ = rest ∧ t.rx.st = .hunt ∧ t.rx.replay = [] ∧ t.rxc.cmd = none ∧
      t.rxc.resp = s.rxc.resp ++ [⟨.ok, false, false, rid, BitVec.ofNat 32 e.length, e⟩] ∧
      t.cnt.env = s.cnt.env + 1 ∧
      t.cnt.huntDrop = s.cnt.huntDrop + BitVec.ofNat 32 (s.env.srcQ.takeWhile (fun b => b != 0xFF)).length

/-- From R206: after noise with no 0xFF the source's reader finds the next built envelope whole and leaves what follows it. -/
def Obligations.NoiseThenEnvelope : Prop :=
  ∀ (topic : Half) (rid : Byte) (P E noise tail : List Byte), build topic rid P = some E →
    (∀ b ∈ noise, b ≠ 0xFF) →
    sourceEnvelope (noise ++ E ++ tail) = some (rid, E.drop 4, tail)

/-- From R205: while input is there, a source byte delivered before or after a receive step of a pending pull gives the same state, so the
grouping of the bytes does not matter. -/
def Obligations.DeliveryCommutes : Prop :=
  ∀ (s : State) (b : Byte), s.pullPending = true → s.take ≠ none →
    ∃ u w t, applyMove (.chan .rxc) s = .next u ∧ applyMove (.srcByte b) u = .next t ∧
      applyMove (.srcByte b) s = .next w ∧ applyMove (.chan .rxc) w = .next t

/-- R223: at every step a pending pull stays pending with no response, or ends with exactly one response: an envelope, NoSyncFound,
SourceClosed, Timeout or Aborted, and RXC is idle. -/
def Obligations.PullEndsOneWay : Prop :=
  ∀ (s t : State) (i : Instr), BlockInv s → s.rxc.cmd = some i → step s = .next t →
    (t.rxc.cmd = some i ∧ t.rxc.resp = s.rxc.resp) ∨
    (t.rxc.cmd = none ∧ ∃ r, t.rxc.resp = s.rxc.resp ++ [r] ∧
      (r.status ∈ [Status.ok, .noSyncFound, .sourceClosed, .timeout, .aborted] ∨
        (i = .rxNextFrame ∧ r.status ∈ [Status.badSyncOrVersion, .checksumMismatch, .badLength])))

/-- R78: a step that is not RXC's and no reset leaves the receive datapath; and what CTLC can read of it is `rx_st` and the replay
level. -/
def Obligations.ReceivePathOwnership : Prop :=
  (∀ s t : State, BlockInv s → step s = .next t → s.draw.1 ≠ .chan .rxc → ¬s.resetsNext → t.rx = s.rx) ∧
  (∀ (s : State) (rx : RxPath) (off : Half), rx.st = s.rx.st → rx.replay.length = s.rx.replay.length →
    csrValue off { s with rx := rx } = csrValue off s)

/-- From R28: while CTRL.RESCAN is 0 and the running pull sampled it so, an empty replay queue stays empty. -/
def Obligations.NoRescanNoReplay : Prop :=
  ∀ s t : State, BlockInv s → s.ctrl.rescan = false → s.rxc.cfg.rescan = false → s.rx.replay = [] → step s = .next t →
    t.rxc.cfg.rescan = false ∧ t.rx.replay = []

/-! ### Control (spec/44_control.md) -/

/-- From R240, R241 and R243: CSR_READ on an idle CTLC completes with the register's value at every mapped offset and changes nothing else. The
snapshot left is the model's reading, DEDUCED (log entry 9). -/
def Obligations.CsrReadReturnsValue : Prop :=
  ∀ (s : State) (off : Half) (v : Word), s.ctlc.cmd = none → (off, v) ∈ csrTable s →
    exec (.csrRead off) s = .next (s.answered .ctlc ⟨.ok, false, false, 0, v, []⟩)

/-- From R30, R31 and R33: the reserved bits of CTRL and STATUS read 0, SOFT_RESET among them; RX_STATE reads at most 4; within the invariant
REPLAY_LEVEL reads the true length. -/
def Obligations.ReservedBitsReadZero : Prop :=
  ∀ s : State,
    (∀ k, 2 ≤ k → (csrValue 0x00 s).getLsbD k = false) ∧
    (∀ k, k ∈ [5, 6, 7, 10, 11, 12, 13, 14, 15] ∨ 19 ≤ k → (csrValue 0x04 s).getLsbD k = false) ∧
    ((csrValue 0x04 s).extractLsb' 0 3).toNat ≤ 4 ∧
    (BlockInv s → (csrValue 0x0C s).toNat = s.rx.replay.length)

/-- R242: a CSR command on an idle CTLC at an offset that is not a multiple of 4, or is 0x38 or above, completes with IllegalCommand
and changes nothing else. -/
def Obligations.CsrOffsetRefused : Prop :=
  ∀ (s : State) (off : Half) (v : Word), s.ctlc.cmd = none → off.toNat % 4 ≠ 0 ∨ 0x38 ≤ off.toNat →
    exec (.csrRead off) s = .next (s.returned .ctlc ⟨.illegalCommand, false, false, 0, 0, []⟩) ∧
    exec (.csrWrite off v) s = .next (s.returned .ctlc ⟨.illegalCommand, false, false, 0, 0, []⟩)

/-- From R245 and R247: CSR_WRITE on an idle CTLC completes with OK and has its register's write effect alone: CTRL without a reset, STATUS's
W1C bits, SYNC_BUDGET, and none for REPLAY_LEVEL. The snapshot left is the model's reading, DEDUCED (log entry 9). -/
def Obligations.CsrWriteEffects : Prop :=
  ∀ (s a : State) (v : Word), s.ctlc.cmd = none → a = s.answered .ctlc ⟨.ok, false, false, 0, 0, []⟩ →
    (v.getLsbD 31 = false → exec (.csrWrite 0x00 v) s = .next
      { a with ctrl := { s.ctrl with strict := v.getLsbD 0, rescan := v.getLsbD 1 } }) ∧
    exec (.csrWrite 0x04 v) s = .next
      { a with sticky := ⟨s.sticky.nosync && !v.getLsbD 16, s.sticky.rxReject && !v.getLsbD 17,
        s.sticky.csumSeen && !v.getLsbD 18⟩ } ∧
    exec (.csrWrite 0x08 v) s = .next { a with ctrl := { s.ctrl with budget := v } } ∧
    exec (.csrWrite 0x0C v) s = .next a

/-- From R35, R245 and R247: a CSR_WRITE of any value to a counter's offset sets that counter to 0 and no other. The snapshot left is the
model's reading, DEDUCED (log entry 9). -/
def Obligations.CounterWriteClears : Prop :=
  ∀ (s : State) (off : Half), s.ctlc.cmd = none → off.toNat % 4 = 0 → 0x10 ≤ off.toNat → off.toNat < 0x38 →
    ∃ k : Counters,
      (∀ v, exec (.csrWrite off v) s = .next { s.answered .ctlc ⟨.ok, false, false, 0, 0, []⟩ with cnt := k }) ∧
      csrValue off { s with cnt := k } = 0 ∧
      ∀ other, other ≠ off → csrValue other { s with cnt := k } = csrValue other s

/-! ### Reset and configuration (spec/70_reset_and_hazards.md) -/

/-- From R248, R292 and R293: a CSR_WRITE of CTRL with bit 31 set writes the two CTRL fields, resets the receive path, the sticky bits, the counters and
the latches, completes pending RX and TX commands with Aborted, drops the waiting envelope, keeps SYNC_BUDGET, and completes with OK.
That CTLC's snapshot holds the values before the write is the model's reading, DEDUCED (log entry 9); that the reset leaves the other snapshots,
the latches of log entry 4 and the response lists is its DESIGN CHOICE (log entry 12). -/
def Obligations.SoftResetState : Prop :=
  ∀ (s : State) (v : Word), s.ctlc.cmd = none → v.getLsbD 31 = true →
    exec (.csrWrite 0x00 v) s = .next
      { s with
        rx := RxPath.idle [] 0
        ctrl := { s.ctrl with strict := v.getLsbD 0, rescan := v.getLsbD 1 }
        sticky := ⟨false, false, false⟩
        cnt := ⟨0, 0, 0, 0, 0, 0, 0, 0, 0, 0⟩
        rxc := s.rxc.afterReset
        txc := s.txc.afterReset
        ctlc := { placed := s.ctlc.placed, cmd := none, cfg := s.ctrl
                  resp := s.ctlc.resp ++ [⟨.ok, false, false, 0, 0, []⟩] }
        txEnv := []
        rxClosed := false
        txClosed := false }

/-- From R291, R293 and R44: power-on reset, register by register; after it CTRL reads 1 and every other register 0. The state right after reset has
those values too; its environment's and its snapshots' values are the model's choice (log entries 6 and 7), and nothing here says them. That a reset leaves the
snapshots, the latches of log entry 4 and the response lists is its DESIGN CHOICE too (log entry 12). -/
def Obligations.PowerOnResetState : Prop :=
  (∀ s : State,
    applyMove .powerOn s = .next
      { s with
        rx := RxPath.idle [] 0
        ctrl := ⟨true, false, 0⟩
        sticky := ⟨false, false, false⟩
        cnt := ⟨0, 0, 0, 0, 0, 0, 0, 0, 0, 0⟩
        rxc := s.rxc.afterReset
        txc := s.txc.afterReset
        ctlc := { s.ctlc with cmd := none }
        txEnv := []
        rxClosed := false
        txClosed := false }) ∧
  (∀ s t : State, t = State.reset ∨ applyMove .powerOn s = .next t →
    (∀ c, t.busy c = false) ∧ csrValue 0x00 t = 0x00000001 ∧
    ∀ off, off ≠ 0x00 → csrOffsetOk off = true → csrValue off t = 0)

/-- R294: neither reset touches the environment, and both lose what the receive path held; the first pull after a reset takes the source bytes not
taken yet, and if there are none and the source is closed it observes the closure again. -/
def Obligations.EnvironmentAcrossReset : Prop :=
  ∀ s t : State, (applyMove .powerOn s = .next t ∨
      ∃ v : Word, v.getLsbD 31 = true ∧ s.ctlc.cmd = none ∧ exec (.csrWrite 0x00 v) s = .next t) →
    t.env = s.env ∧ t.rx = RxPath.idle [] 0 ∧
    ∀ i, i = .rxNextEnv ∨ i = .rxNextFrame →
      ∃ u, exec i t = .next u ∧ u.rxc.cmd = some i ∧
        (∀ b q, s.env.srcQ = b :: q → u.take = some (b, { u with env := { u.env with srcQ := q } })) ∧
        (s.env.srcQ = [] → s.env.srcClosed = true →
          ∃ w, exec i u = .next w ∧ w.rxClosed = true ∧
            w.rxc.resp = t.rxc.resp ++ [⟨.sourceClosed, false, false, 0, 0, []⟩])

/-- From R274 and R290: no step but a reset clears a latched closure, and no step that latches one path's closure touches the other's. -/
def Obligations.ClosureLatched : Prop :=
  ∀ s t : State, BlockInv s → step s = .next t → ¬s.resetsNext →
    (s.rxClosed = true → t.rxClosed = true) ∧ (s.txClosed = true → t.txClosed = true) ∧
    (t.rxClosed = s.rxClosed ∨ t.txClosed = s.txClosed)

/-- From R249, R37 and R304: a command that is running does not see a change of CTRL or SYNC_BUDGET: a CSR_WRITE leaves the other channels' snapshots, and a step of a
running command is the same with any other control registers; a pull, a send or a pure command accepted next samples the registers as they are. That a CSR_WRITE with a soft
reset leaves the snapshots is the model's DESIGN CHOICE (log entry 12); that a completed command's snapshot stays is its reading, DEDUCED
(log entry 9). -/
def Obligations.RunningCommandKeepsSnapshot : Prop :=
  (∀ (s t : State) (off : Half) (v : Word), exec (.csrWrite off v) s = .next t →
    t.rxc.cfg = s.rxc.cfg ∧ t.txc.cfg = s.txc.cfg) ∧
  (∀ (s t : State) (i : Instr) (k : Cfg), (s.chan i.channel).cmd = some i → exec i s = .next t →
    exec i { s with ctrl := k } = .next { t with ctrl := k }) ∧
  (∀ (s t : State) (i : Instr), (s.chan i.channel).cmd = none → (∀ off, i ≠ .csrRead off) → (∀ off v, i ≠ .csrWrite off v) →
    exec i s = .next t → (t.chan i.channel).cfg = s.ctrl)

/-- R73: outside power-on reset, a step that changes a counter other than CNT_HUNT_DROP, or a sticky bit, returns a response; a step that changes
CNT_HUNT_DROP returns one or is RXC's while a pull is pending. -/
def Obligations.CounterVisibility : Prop :=
  ∀ s t : State, BlockInv s → step s = .next t → s.draw.1 ≠ .powerOn →
    ((t.sticky ≠ s.sticky ∨ { t.cnt with huntDrop := 0 } ≠ { s.cnt with huntDrop := 0 }) →
      ∃ c r, (t.chan c).resp = (s.chan c).resp ++ [r]) ∧
    (t.cnt.huntDrop ≠ s.cnt.huntDrop →
      (s.draw.1 = .chan .rxc ∧ s.pullPending = true ∧ t.cnt.huntDrop = s.cnt.huntDrop + 1) ∨
        ∃ r, t.ctlc.resp = s.ctlc.resp ++ [r])

/-! ### Encodings (spec/30_encoding.md) -/

/-- From R89, R90 and R266: decode refuses exactly what R89 lists; what it accepts has the descriptor's own fields as operands; a refused command on an idle
channel completes with IllegalCommand and changes nothing else, but for the latch of placed commands, which is emptied: the model's DESIGN CHOICE (log entry 4). -/
def Obligations.DecodeRefusals : Prop :=
  (∀ (c : Channel) (w : Word) (data : List Byte) (op : Byte), op = fieldOp w →
    ((∃ e, decode c ⟨w, data⟩ = .error e) ↔
      op ∉ [(0x01 : Byte), 0x02, 0x03, 0x10, 0x11, 0x20, 0x30, 0x31] ∨
      (op ∈ [(0x10 : Byte), 0x11] ∧ c ≠ .rxc) ∨ (op = 0x20 ∧ c ≠ .txc) ∨ (op ∈ [(0x30 : Byte), 0x31] ∧ c ≠ .ctlc) ∨
      (op ∈ [(0x01 : Byte), 0x03, 0x10, 0x11] ∧ fieldA8 w ≠ 0) ∨
      (op ∈ [(0x01 : Byte), 0x03, 0x10, 0x11] ∧ fieldA16 w ≠ 0) ∨
      (op ∈ [(0x30 : Byte), 0x31] ∧ fieldA8 w ≠ 0) ∨
      (op ∈ [(0x10 : Byte), 0x11, 0x30] ∧ data.length ≠ 0) ∨ (op = 0x31 ∧ data.length ≠ 4))) ∧
  (∀ (c : Channel) (x : Descriptor) (i : Instr), decode c x = .ok i → i.channel = c ∧ encode i = x) ∧
  (∀ (c : Channel) (s : State) (x : Descriptor) (e : Reject),
    (s.chan c).cmd = none → (s.chan c).placed = some x → decode c x = .error e →
    applyMove (.chan c) s = .next (s.setChan c
      { s.chan c with placed := none
                      resp := (s.chan c).resp ++ [⟨.illegalCommand, false, false, 0, 0, []⟩] }))

/-- From R87 to R89: the bytes of every well-formed command, followed by anything, decode on its channel to that command and leave what follows. -/
def Obligations.DecodeEncodeRoundTrip : Prop :=
  ∀ (i : Instr) (rest : List Byte), i.wf = true →
    decodeBytes i.channel ((encode i).bytes ++ rest) = .ok (i, rest)

/-- From R87 and R88: commands written out byte by byte from the spec's encodings decode to what they stand for. -/
def Obligations.SpecBytesDecode : Prop :=
  decodeBytes .rxc [0x01, 0, 0, 0, 0x02, 0, 0, 0, 0x14, 0x00] = .ok (.csum .rxc [0x14, 0x00], []) ∧
  decodeBytes .txc [0x02, 0x03, 0x05, 0x00, 0x03, 0, 0, 0, 1, 2, 3] = .ok (.build .txc 0x03 0x0005 [1, 2, 3], []) ∧
  decodeBytes .rxc [0x11, 0, 0, 0, 0, 0, 0, 0] = .ok (.rxNextFrame, []) ∧
  decodeBytes .txc [0x20, 0x01, 0xD2, 0x00, 0, 0, 0, 0] = .ok (.txSend 0x01 0x00D2 [], []) ∧
  decodeBytes .ctlc [0x31, 0, 0x14, 0x00, 0x04, 0, 0, 0, 0x78, 0x56, 0x34, 0x12] = .ok (.csrWrite 0x0014 0x12345678, []) ∧
  decodeBytes .rxc [0x01, 0x01, 0, 0, 0, 0, 0, 0] = .error .nonzeroA8

/-! ### The machine -/

/-- From R89, R191 and R192: a step of an idle channel whose placed command decodes to a well-formed command is exec of that command, with the move
gone and the command off the latch (log entry 4, DESIGN CHOICE); a step of a busy channel is exec of the command it executes, with the move gone. -/
def Obligations.StepRunsDecoded : Prop :=
  ∀ (s : State) (c : Channel) (ms : List Move), s.moves = .chan c :: ms →
    (∀ x i, (s.chan c).cmd = none → (s.chan c).placed = some x → decode c x = .ok i → i.wf = true →
      step s = exec i (({ s with moves := ms } : State).setChan c { s.chan c with placed := none })) ∧
    (∀ i, (s.chan c).cmd = some i → step s = exec i { s with moves := ms })

/-- R288: the block has no fault outcome: every step of every state, and every command in every state, answers a next state; a pull held on an empty,
open source and a send held on an open sink have no step of their own; and a host that places a command on a busy channel makes no move. -/
def Obligations.NoFaultOutcome : Prop :=
  (∀ s : State, ∃ t, step s = .next t) ∧
  (∀ (i : Instr) (s : State), ∃ t, exec i s = .next t) ∧
  (∀ (i : Instr) (s : State), s.pullPending = true → s.rxc.cmd = some i → s.rx.replay = [] → s.env.srcQ = [] →
    s.env.srcClosed = false → applyMove (.chan .rxc) s = .next s) ∧
  (∀ s : State, s.sendWaiting = true → s.env.snkClosed = false → applyMove (.chan .txc) s = .next s) ∧
  (∀ (c : Channel) (x : Descriptor) (s : State), s.busy c = true → applyMove (.place c x) s = .next s)

/-- From R26, R38, R39, R202, R214, R218 and R301: every step keeps the invariant of the block. -/
def Obligations.StepKeepsInvariant : Prop :=
  ∀ s t : State, BlockInv s → step s = .next t → BlockInv t

/-- From R44 and R291: the invariant holds right after reset, where nothing is placed (log entry 4's choice) and nothing is closed (log entry 7's). -/
def Obligations.ResetInvariant : Prop := BlockInv State.reset
end

