-- ==== Sys2Proof/Laws/Decode.lean ====
section
/-! SUPPORT. The laws of the command word's fields, the opcode map and the descriptor's bytes, and what decode answers. -/

namespace Sys2Proof

/-! ### Fields of a command word -/

theorem commandWord_toNat (op a8 : Byte) (a16 : Half) :
    (commandWord op a8 a16).toNat = op.toNat + 2 ^ 8 * a8.toNat + 2 ^ 16 * a16.toNat := by
  have h0 := op.isLt
  have h1 := a8.isLt
  simp only [commandWord, BitVec.toNat_append]
  rw [← Nat.shiftLeft_add_eq_or_of_lt (by omega), ← Nat.shiftLeft_add_eq_or_of_lt (by omega)]
  simp only [Nat.shiftLeft_eq]
  omega

@[simp] theorem fieldOp_commandWord (op a8 : Byte) (a16 : Half) : fieldOp (commandWord op a8 a16) = op := by
  apply BitVec.eq_of_toNat_eq
  have h0 := op.isLt
  simp only [fieldOp, BitVec.extractLsb'_toNat, commandWord_toNat, Nat.shiftRight_eq_div_pow]
  omega

@[simp] theorem fieldA8_commandWord (op a8 : Byte) (a16 : Half) : fieldA8 (commandWord op a8 a16) = a8 := by
  apply BitVec.eq_of_toNat_eq
  have h0 := op.isLt
  have h1 := a8.isLt
  simp only [fieldA8, BitVec.extractLsb'_toNat, commandWord_toNat, Nat.shiftRight_eq_div_pow]
  omega

@[simp] theorem fieldA16_commandWord (op a8 : Byte) (a16 : Half) : fieldA16 (commandWord op a8 a16) = a16 := by
  apply BitVec.eq_of_toNat_eq
  have h0 := op.isLt
  have h1 := a8.isLt
  have h2 := a16.isLt
  simp only [fieldA16, BitVec.extractLsb'_toNat, commandWord_toNat, Nat.shiftRight_eq_div_pow]
  omega

/-- A word is the command word of its own fields. -/
theorem commandWord_fields (w : Word) : commandWord (fieldOp w) (fieldA8 w) (fieldA16 w) = w := by
  apply BitVec.eq_of_toNat_eq
  have := w.isLt
  simp only [commandWord_toNat, fieldOp, fieldA8, fieldA16, BitVec.extractLsb'_toNat, Nat.shiftRight_eq_div_pow]
  omega

/-! ### The opcode map -/

@[simp] theorem opOfCode_opCode (op : Op) : opOfCode (opCode op) = some op := by
  cases op <;> rfl

/-- An OP value that decodes is the code of what it decodes to. -/
theorem opCode_of_opOfCode {b : Byte} {op : Op} (h : opOfCode b = some op) : opCode op = b := by
  have := List.find?_some h
  simpa using this

/-! ### What decode answers -/

/-- Decode accepts exactly the commands that pass every test of R89, and answers the opcode with its operands. -/
theorem decode_ok_iff (c : Channel) (x : Descriptor) (i : Instr) :
    decode c x = .ok i ↔
      ∃ op, opOfCode (fieldOp x.w) = some op ∧ c ∈ opChannels op ∧ (opUsesA8 op = false → fieldA8 x.w = 0) ∧
        (opUsesA16 op = false → fieldA16 x.w = 0) ∧ opDlenOk op x.data.length = true ∧
        instrOf op c (fieldA8 x.w) (fieldA16 x.w) x.data = i := by
  unfold decode
  cases h : opOfCode (fieldOp x.w) with
  | none => simp
  | some op =>
    simp only [Option.some.injEq, exists_eq_left', Bool.and_eq_true, Bool.not_eq_true', bne_iff_ne, ne_eq,
      List.contains_eq_mem, decide_eq_false_iff_not]
    split_ifs with h1 h2 h3 h4 <;> simp_all

/-- A decoded command runs on the channel that decoded it. -/
theorem decode_channel {c : Channel} {x : Descriptor} {i : Instr} (h : decode c x = .ok i) : i.channel = c := by
  obtain ⟨op, -, hc, -, -, -, rfl⟩ := (decode_ok_iff c x i).1 h
  cases op <;> simp_all [opChannels, instrOf, Instr.channel]

/-! ### The serialised descriptor -/

/-- Reading a descriptor from its own bytes gives it back and leaves what follows (R87). -/
theorem readDescriptor_bytes (x : Descriptor) (hx : x.wf = true) (rest : List Byte) :
    readDescriptor (x.bytes ++ rest) = .ok (x, rest) := by
  have hlen : x.data.length < 2 ^ 32 := by simpa [Descriptor.wf, laneFits] using hx
  have hn : (BitVec.ofNat 32 x.data.length).toNat = x.data.length := by
    simp only [BitVec.toNat_ofNat]
    omega
  simp only [Descriptor.bytes, wordBytes, List.cons_append, List.nil_append, readDescriptor,
    le32_wordBytes, hn]
  simp

end Sys2Proof
end

