-- ==== Sys2Proof/Laws/State.lean ====
section
/-! SUPPORT. One lemma per field per update of State: writing a channel, accepting, completing, raising, placing. -/

namespace Sys2Proof.Machine

/-! ### setChan -/

@[simp] theorem setChan_rx (s : State) (c : Channel) (x : Chan) : (s.setChan c x).rx = s.rx := by cases c <;> rfl
@[simp] theorem setChan_ctrl (s : State) (c : Channel) (x : Chan) : (s.setChan c x).ctrl = s.ctrl := by cases c <;> rfl
@[simp] theorem setChan_sticky (s : State) (c : Channel) (x : Chan) : (s.setChan c x).sticky = s.sticky := by cases c <;> rfl
@[simp] theorem setChan_cnt (s : State) (c : Channel) (x : Chan) : (s.setChan c x).cnt = s.cnt := by cases c <;> rfl
@[simp] theorem setChan_txEnv (s : State) (c : Channel) (x : Chan) : (s.setChan c x).txEnv = s.txEnv := by cases c <;> rfl
@[simp] theorem setChan_rxClosed (s : State) (c : Channel) (x : Chan) : (s.setChan c x).rxClosed = s.rxClosed := by cases c <;> rfl
@[simp] theorem setChan_txClosed (s : State) (c : Channel) (x : Chan) : (s.setChan c x).txClosed = s.txClosed := by cases c <;> rfl
@[simp] theorem setChan_env (s : State) (c : Channel) (x : Chan) : (s.setChan c x).env = s.env := by cases c <;> rfl
@[simp] theorem setChan_moves (s : State) (c : Channel) (x : Chan) : (s.setChan c x).moves = s.moves := by cases c <;> rfl
@[simp] theorem setChan_drawn (s : State) (c : Channel) (x : Chan) : (s.setChan c x).drawn = s.drawn := by cases c <;> rfl

/-! ### accept -/

@[simp] theorem accept_rx (s : State) (c : Channel) (i : Instr) : (accept c i s).rx = s.rx := by cases c <;> rfl
@[simp] theorem accept_ctrl (s : State) (c : Channel) (i : Instr) : (accept c i s).ctrl = s.ctrl := by cases c <;> rfl
@[simp] theorem accept_sticky (s : State) (c : Channel) (i : Instr) : (accept c i s).sticky = s.sticky := by cases c <;> rfl
@[simp] theorem accept_cnt (s : State) (c : Channel) (i : Instr) : (accept c i s).cnt = s.cnt := by cases c <;> rfl
@[simp] theorem accept_txEnv (s : State) (c : Channel) (i : Instr) : (accept c i s).txEnv = s.txEnv := by cases c <;> rfl
@[simp] theorem accept_rxClosed (s : State) (c : Channel) (i : Instr) : (accept c i s).rxClosed = s.rxClosed := by cases c <;> rfl
@[simp] theorem accept_txClosed (s : State) (c : Channel) (i : Instr) : (accept c i s).txClosed = s.txClosed := by cases c <;> rfl
@[simp] theorem accept_env (s : State) (c : Channel) (i : Instr) : (accept c i s).env = s.env := by cases c <;> rfl
@[simp] theorem accept_moves (s : State) (c : Channel) (i : Instr) : (accept c i s).moves = s.moves := by cases c <;> rfl
@[simp] theorem accept_drawn (s : State) (c : Channel) (i : Instr) : (accept c i s).drawn = s.drawn := by cases c <;> rfl

/-! ### complete -/

@[simp] theorem complete_rx (s : State) (c : Channel) (r : Response) : (complete c r s).rx = s.rx := by cases c <;> rfl
@[simp] theorem complete_ctrl (s : State) (c : Channel) (r : Response) : (complete c r s).ctrl = s.ctrl := by cases c <;> rfl
@[simp] theorem complete_sticky (s : State) (c : Channel) (r : Response) : (complete c r s).sticky = s.sticky := by cases c <;> rfl
@[simp] theorem complete_cnt (s : State) (c : Channel) (r : Response) : (complete c r s).cnt = s.cnt := by cases c <;> rfl
@[simp] theorem complete_txEnv (s : State) (c : Channel) (r : Response) : (complete c r s).txEnv = s.txEnv := by cases c <;> rfl
@[simp] theorem complete_rxClosed (s : State) (c : Channel) (r : Response) : (complete c r s).rxClosed = s.rxClosed := by cases c <;> rfl
@[simp] theorem complete_txClosed (s : State) (c : Channel) (r : Response) : (complete c r s).txClosed = s.txClosed := by cases c <;> rfl
@[simp] theorem complete_env (s : State) (c : Channel) (r : Response) : (complete c r s).env = s.env := by cases c <;> rfl
@[simp] theorem complete_moves (s : State) (c : Channel) (r : Response) : (complete c r s).moves = s.moves := by cases c <;> rfl
@[simp] theorem complete_drawn (s : State) (c : Channel) (r : Response) : (complete c r s).drawn = s.drawn := by cases c <;> rfl

/-! ### raise -/

@[simp] theorem raise_rx (s : State) (c : Channel) (e : Status) : (raise c e s).rx = s.rx := by cases c <;> rfl
@[simp] theorem raise_ctrl (s : State) (c : Channel) (e : Status) : (raise c e s).ctrl = s.ctrl := by cases c <;> rfl
@[simp] theorem raise_sticky (s : State) (c : Channel) (e : Status) : (raise c e s).sticky = s.sticky := by cases c <;> rfl
@[simp] theorem raise_cnt (s : State) (c : Channel) (e : Status) : (raise c e s).cnt = s.cnt := by cases c <;> rfl
@[simp] theorem raise_txEnv (s : State) (c : Channel) (e : Status) : (raise c e s).txEnv = s.txEnv := by cases c <;> rfl
@[simp] theorem raise_rxClosed (s : State) (c : Channel) (e : Status) : (raise c e s).rxClosed = s.rxClosed := by cases c <;> rfl
@[simp] theorem raise_txClosed (s : State) (c : Channel) (e : Status) : (raise c e s).txClosed = s.txClosed := by cases c <;> rfl
@[simp] theorem raise_env (s : State) (c : Channel) (e : Status) : (raise c e s).env = s.env := by cases c <;> rfl
@[simp] theorem raise_moves (s : State) (c : Channel) (e : Status) : (raise c e s).moves = s.moves := by cases c <;> rfl
@[simp] theorem raise_drawn (s : State) (c : Channel) (e : Status) : (raise c e s).drawn = s.drawn := by cases c <;> rfl

/-! ### unplace -/

@[simp] theorem unplace_rx (s : State) (c : Channel) : (unplace c s).rx = s.rx := by cases c <;> rfl
@[simp] theorem unplace_ctrl (s : State) (c : Channel) : (unplace c s).ctrl = s.ctrl := by cases c <;> rfl
@[simp] theorem unplace_sticky (s : State) (c : Channel) : (unplace c s).sticky = s.sticky := by cases c <;> rfl
@[simp] theorem unplace_cnt (s : State) (c : Channel) : (unplace c s).cnt = s.cnt := by cases c <;> rfl
@[simp] theorem unplace_txEnv (s : State) (c : Channel) : (unplace c s).txEnv = s.txEnv := by cases c <;> rfl
@[simp] theorem unplace_rxClosed (s : State) (c : Channel) : (unplace c s).rxClosed = s.rxClosed := by cases c <;> rfl
@[simp] theorem unplace_txClosed (s : State) (c : Channel) : (unplace c s).txClosed = s.txClosed := by cases c <;> rfl
@[simp] theorem unplace_env (s : State) (c : Channel) : (unplace c s).env = s.env := by cases c <;> rfl
@[simp] theorem unplace_moves (s : State) (c : Channel) : (unplace c s).moves = s.moves := by cases c <;> rfl
@[simp] theorem unplace_drawn (s : State) (c : Channel) : (unplace c s).drawn = s.drawn := by cases c <;> rfl

/-! ### Channels -/

@[simp] theorem chan_rxc (s : State) : s.chan .rxc = s.rxc := rfl
@[simp] theorem chan_txc (s : State) : s.chan .txc = s.txc := rfl
@[simp] theorem chan_ctlc (s : State) : s.chan .ctlc = s.ctlc := rfl
@[simp] theorem setChan_rxc (s : State) (x : Chan) : (s.setChan .rxc x).rxc = x := rfl
@[simp] theorem setChan_rxc_txc (s : State) (x : Chan) : (s.setChan .rxc x).txc = s.txc := rfl
@[simp] theorem setChan_rxc_ctlc (s : State) (x : Chan) : (s.setChan .rxc x).ctlc = s.ctlc := rfl
@[simp] theorem setChan_txc_rxc (s : State) (x : Chan) : (s.setChan .txc x).rxc = s.rxc := rfl
@[simp] theorem setChan_txc (s : State) (x : Chan) : (s.setChan .txc x).txc = x := rfl
@[simp] theorem setChan_txc_ctlc (s : State) (x : Chan) : (s.setChan .txc x).ctlc = s.ctlc := rfl
@[simp] theorem setChan_ctlc_rxc (s : State) (x : Chan) : (s.setChan .ctlc x).rxc = s.rxc := rfl
@[simp] theorem setChan_ctlc_txc (s : State) (x : Chan) : (s.setChan .ctlc x).txc = s.txc := rfl
@[simp] theorem setChan_ctlc (s : State) (x : Chan) : (s.setChan .ctlc x).ctlc = x := rfl

@[simp] theorem chan_setChan_self (s : State) (c : Channel) (x : Chan) : (s.setChan c x).chan c = x := by
  cases c <;> rfl

theorem chan_setChan_ne (s : State) {c d : Channel} (x : Chan) (h : d ≠ c) : (s.setChan c x).chan d = s.chan d := by
  cases c <;> cases d <;> first | rfl | exact absurd rfl h

@[simp] theorem setChan_setChan (s : State) (c : Channel) (x y : Chan) :
    (s.setChan c x).setChan c y = s.setChan c y := by
  cases c <;> rfl

@[simp] theorem setChan_chan (s : State) (c : Channel) : s.setChan c (s.chan c) = s := by
  cases c <;> rfl

/-! ### The channel an operation writes -/

@[simp] theorem accept_chan_self (s : State) (c : Channel) (i : Instr) :
    (accept c i s).chan c = { s.chan c with cmd := some i, cfg := s.ctrl } := by cases c <;> rfl

@[simp] theorem complete_chan_self (s : State) (c : Channel) (r : Response) :
    (complete c r s).chan c = { s.chan c with cmd := none, resp := (s.chan c).resp ++ [r] } := by cases c <;> rfl

@[simp] theorem unplace_chan_self (s : State) (c : Channel) :
    (unplace c s).chan c = { s.chan c with placed := none } := by cases c <;> rfl

theorem accept_chan_ne (s : State) {c d : Channel} (i : Instr) (h : d ≠ c) : (accept c i s).chan d = s.chan d :=
  chan_setChan_ne s _ h

theorem complete_chan_ne (s : State) {c d : Channel} (r : Response) (h : d ≠ c) :
    (complete c r s).chan d = s.chan d :=
  chan_setChan_ne s _ h

theorem unplace_chan_ne (s : State) {c d : Channel} (h : d ≠ c) : (unplace c s).chan d = s.chan d :=
  chan_setChan_ne s _ h

/-- Accepting and completing a command in one step. -/
theorem complete_accept (s : State) (c : Channel) (i : Instr) (r : Response) :
    complete c r (accept c i s)
      = s.setChan c { s.chan c with cmd := none, cfg := s.ctrl, resp := (s.chan c).resp ++ [r] } := by
  cases c <;> rfl

end Sys2Proof.Machine
end

