-- ==== Sys2Proof/Laws/Ops.lean ====
section
/-! SUPPORT. What each shared operation can do, said once: taking a byte, one-step commands, the resets, the host's and the
environment's moves, the receive step, the control commands. -/

namespace Sys2Proof.Machine

/-! ### take (R196) -/

/-- `take` answers the head of the replay queue, or, where that is empty, the head of the source queue. -/
theorem take_some_iff (s t : State) (b : Byte) :
    s.take = some (b, t) ↔
      (∃ r, s.rx.replay = b :: r ∧ t = { s with rx := { s.rx with replay := r } }) ∨
      (s.rx.replay = [] ∧ ∃ q, s.env.srcQ = b :: q ∧ t = { s with env := { s.env with srcQ := q } }) := by
  unfold State.take
  cases h : s.rx.replay with
  | cons a r => simp [eq_comm]
  | nil =>
    cases h2 : s.env.srcQ with
    | nil => simp
    | cons a q => simp [eq_comm]

/-- `take` answers nothing exactly when both queues are empty. -/
theorem take_none_iff (s : State) : s.take = none ↔ s.rx.replay = [] ∧ s.env.srcQ = [] := by
  unfold State.take
  cases h : s.rx.replay with
  | cons a r => simp
  | nil => cases h2 : s.env.srcQ <;> simp

/-- Taking a byte changes nothing of the receive datapath but the replay queue: its head goes, or it was empty and stays so. -/
theorem take_rx {s s1 : State} {b : Byte} (h : s.take = some (b, s1)) :
    ∃ r, s1.rx = { s.rx with replay := r } ∧ (s.rx.replay = b :: r ∨ r = [] ∧ s.rx.replay = []) := by
  rcases (take_some_iff _ _ _).1 h with ⟨r, h1, rfl⟩ | ⟨h1, q, h2, rfl⟩
  · exact ⟨r, rfl, .inl h1⟩
  · exact ⟨[], by rw [← h1], .inr ⟨rfl, h1⟩⟩

/-- Taking a byte changes nothing outside the receive datapath and the source queue. -/
theorem take_rest {s s1 : State} {b : Byte} (h : s.take = some (b, s1)) :
    s1 = { s with rx := s1.rx, env := { s.env with srcQ := s1.env.srcQ } } := by
  rcases (take_some_iff _ _ _).1 h with ⟨r, h1, rfl⟩ | ⟨h1, q, h2, rfl⟩ <;> rfl

/-! ### Commands of one step -/

theorem oneStep_idle (c : Channel) (i : Instr) (s : State) (f : State → State) (h : (s.chan c).cmd = none) :
    oneStep c i s f = f (accept c i s) := by
  simp [oneStep, State.busy, h]

theorem oneStep_busy (c : Channel) (i : Instr) (s : State) (f : State → State) (h : (s.chan c).cmd.isSome = true) :
    oneStep c i s f = s := by
  simp [oneStep, State.busy, h]

theorem csrCommand_idle (i : Instr) (off : Half) (s : State) (f : State → State) (h : s.ctlc.cmd = none) :
    csrCommand i off s f = if csrOffsetOk off then f (accept .ctlc i s) else raise .ctlc .illegalCommand s := by
  simp [csrCommand, State.busy, h]

theorem csrCommand_busy (i : Instr) (off : Half) (s : State) (f : State → State) (h : s.ctlc.cmd.isSome = true) :
    csrCommand i off s f = s := by
  simp [csrCommand, State.busy, h]

/-! ### The resets (R291 to R294) -/

/-- The channel after a reset: idle, with an Aborted response if a command was pending on it. -/
def abortedChan (x : Chan) : Chan :=
  { x with cmd := none, resp := if x.cmd.isSome then x.resp ++ [Response.fail .aborted] else x.resp }

theorem abort_eq (c : Channel) (s : State) : abort c s = s.setChan c (abortedChan (s.chan c)) := by
  unfold abort abortedChan State.busy
  cases h : (s.chan c).cmd with
  | none =>
    have : ({ s.chan c with cmd := none } : Chan) = s.chan c := by
      cases hc : s.chan c
      simp_all
    simp [this]
  | some i => simp [raise, complete]

/-- A soft reset, field by field. -/
theorem softReset_eq (s : State) :
    softReset s =
      { s with
        rx := RxPath.reset
        sticky := Sticky.reset
        cnt := Counters.reset
        rxc := abortedChan s.rxc
        txc := abortedChan s.txc
        ctlc := { s.ctlc with cmd := none }
        txEnv := []
        rxClosed := false
        txClosed := false } := by
  simp [softReset, abort_eq, State.setChan, State.chan]

@[simp] theorem abortedChan_cmd (x : Chan) : (abortedChan x).cmd = none := rfl
@[simp] theorem abortedChan_placed (x : Chan) : (abortedChan x).placed = x.placed := rfl
@[simp] theorem abortedChan_cfg (x : Chan) : (abortedChan x).cfg = x.cfg := rfl

/-! ### The host and the environment -/

/-- Placing changes at most the placed command of an idle channel that has none, to a command that can be presented. -/
theorem hostPlace_cases (c : Channel) (x : Descriptor) (s : State) :
    hostPlace c x s = s ∨
      ((s.chan c).cmd = none ∧ (s.chan c).placed = none ∧ x.wf = true ∧
        hostPlace c x s = s.setChan c { s.chan c with placed := some x }) := by
  unfold hostPlace State.busy
  cases h1 : (s.chan c).cmd <;> cases h2 : (s.chan c).placed <;> cases h3 : x.wf <;> simp

/-- A delivery changes at most the source queue, at its end. -/
theorem srcDeliver_cases (b : Byte) (s : State) :
    srcDeliver b s = s ∧ s.env.srcClosed = true ∨
      s.env.srcClosed = false ∧ srcDeliver b s = { s with env := { s.env with srcQ := s.env.srcQ ++ [b] } } := by
  unfold srcDeliver
  cases h : s.env.srcClosed <;> simp

/-- The sink's acceptance does nothing, or takes the waiting envelope whole and completes TX_SEND (R147). -/
theorem sinkAccept_cases (s : State) :
    sinkAccept s = s ∨
      (s.sendWaiting = true ∧ s.env.snkClosed = false ∧
        sinkAccept s = complete .txc Response.done
          { s with
            env := { s.env with snkLog := s.env.snkLog ++ s.txEnv }
            txEnv := []
            cnt := { s.cnt with txOk := s.cnt.txOk + 1 } }) := by
  unfold sinkAccept
  cases h1 : s.sendWaiting <;> cases h2 : s.env.snkClosed <;> simp

/-- The Timeout draw does nothing, or completes a held pull with Timeout (R222). -/
theorem timeoutStep_cases (s : State) :
    timeoutStep s = s ∨ (Config.timeoutEnabled = true ∧ s.pullHolds = true ∧ timeoutStep s = raise .rxc .timeout s) := by
  unfold timeoutStep
  cases h1 : Config.timeoutEnabled <;> cases h2 : s.pullHolds <;> simp

/-! ### Transmit -/

/-- The acceptance of a TX_SEND: too large, closed, or waiting for the sink (R145, R149). -/
theorem sendAccept_cases (rid : Byte) (topic : Half) (data : List Byte) (s : State) :
    (build topic rid data = none ∧
      sendAccept rid topic data s
        = raise .txc .valueTooLarge { s with cnt := { s.cnt with txTooLarge := s.cnt.txTooLarge + 1 } }) ∨
    (∃ e, build topic rid data = some e ∧ s.txClosed = true ∧
      sendAccept rid topic data s = raise .txc .sinkClosed s) ∨
    (∃ e, build topic rid data = some e ∧ s.txClosed = false ∧
      sendAccept rid topic data s = { s with txEnv := e }) := by
  unfold sendAccept
  cases h : build topic rid data <;> cases h2 : s.txClosed <;> simp

/-- A waiting TX_SEND observes the sink closed (R148), or holds (R146). -/
theorem sendWait_cases (s : State) :
    (s.env.snkClosed = true ∧ sendWait s = raise .txc .sinkClosed { s with txClosed := true, txEnv := [] }) ∨
      (s.env.snkClosed = false ∧ sendWait s = s) := by
  unfold sendWait
  cases h : s.env.snkClosed <;> simp

/-! ### Receive -/

theorem recvByte_sync (done : Byte → List Byte → State → State) (s : State) (h : s.rx.st = .hunt) :
    recvByte done Config.sync s = { s with rx := { s.rx with huntRun := 0, st := .hdrId } } := by
  simp [recvByte, h]

theorem recvByte_drop (done : Byte → List Byte → State → State) (b : Byte) (s : State) (h : s.rx.st = .hunt)
    (hb : b ≠ Config.sync) : recvByte done b s = dropByte s := by
  simp [recvByte, h, hb]

theorem recvByte_hdrId (done : Byte → List Byte → State → State) (b : Byte) (s : State) (h : s.rx.st = .hdrId) :
    recvByte done b s = { s with rx := { s.rx with rid := b, st := .hdrLenLo } } := by
  simp [recvByte, h]

theorem recvByte_hdrLenLo (done : Byte → List Byte → State → State) (b : Byte) (s : State)
    (h : s.rx.st = .hdrLenLo) :
    recvByte done b s = { s with rx := { s.rx with lenLo := b, st := .hdrLenHi } } := by
  simp [recvByte, h]

theorem recvByte_hdrLenHi (done : Byte → List Byte → State → State) (b : Byte) (s : State)
    (h : s.rx.st = .hdrLenHi) (hb : le16 s.rx.lenLo b ≠ 0) :
    recvByte done b s = { s with rx := { s.rx with len := le16 s.rx.lenLo b, buf := [], st := .payload } } := by
  simp only [recvByte, h]
  rw [if_neg hb]

theorem recvByte_empty (done : Byte → List Byte → State → State) (b : Byte) (s : State)
    (h : s.rx.st = .hdrLenHi) (hb : le16 s.rx.lenLo b = 0) :
    recvByte done b s = done s.rx.rid []
      { s with rx := RxPath.toHunt s.rx, cnt := { s.cnt with env := s.cnt.env + 1 } } := by
  simp only [recvByte, h]
  rw [if_pos hb]
  rfl

theorem recvByte_payload (done : Byte → List Byte → State → State) (b : Byte) (s : State)
    (h : s.rx.st = .payload) (hb : s.rx.buf.length + 1 ≠ s.rx.len.toNat) :
    recvByte done b s = { s with rx := { s.rx with buf := s.rx.buf ++ [b] } } := by
  simp only [recvByte, h]
  rw [if_neg hb]

theorem recvByte_last (done : Byte → List Byte → State → State) (b : Byte) (s : State)
    (h : s.rx.st = .payload) (hb : s.rx.buf.length + 1 = s.rx.len.toNat) :
    recvByte done b s = done s.rx.rid (s.rx.buf ++ [b])
      { s with rx := RxPath.toHunt s.rx, cnt := { s.cnt with env := s.cnt.env + 1 } } := by
  simp only [recvByte, h]
  rw [if_pos hb]
  rfl

/-- One taken byte, by the state it is taken in (R194). -/
theorem recvByte_cases (done : Byte → List Byte → State → State) (b : Byte) (s : State) :
    (s.rx.st = .hunt ∧ b = Config.sync ∧
      recvByte done b s = { s with rx := { s.rx with huntRun := 0, st := .hdrId } }) ∨
    (s.rx.st = .hunt ∧ b ≠ Config.sync ∧ recvByte done b s = dropByte s) ∨
    (s.rx.st = .hdrId ∧ recvByte done b s = { s with rx := { s.rx with rid := b, st := .hdrLenLo } }) ∨
    (s.rx.st = .hdrLenLo ∧ recvByte done b s = { s with rx := { s.rx with lenLo := b, st := .hdrLenHi } }) ∨
    (s.rx.st = .hdrLenHi ∧ le16 s.rx.lenLo b ≠ 0 ∧
      recvByte done b s = { s with rx := { s.rx with len := le16 s.rx.lenLo b, buf := [], st := .payload } }) ∨
    (s.rx.st = .hdrLenHi ∧ le16 s.rx.lenLo b = 0 ∧
      recvByte done b s = done s.rx.rid []
        { s with rx := RxPath.toHunt s.rx, cnt := { s.cnt with env := s.cnt.env + 1 } }) ∨
    (s.rx.st = .payload ∧ s.rx.buf.length + 1 ≠ s.rx.len.toNat ∧
      recvByte done b s = { s with rx := { s.rx with buf := s.rx.buf ++ [b] } }) ∨
    (s.rx.st = .payload ∧ s.rx.buf.length + 1 = s.rx.len.toNat ∧
      recvByte done b s = done s.rx.rid (s.rx.buf ++ [b])
        { s with rx := RxPath.toHunt s.rx, cnt := { s.cnt with env := s.cnt.env + 1 } }) := by
  cases h : s.rx.st with
  | hunt =>
    by_cases hb : b = Config.sync
    · exact .inl ⟨rfl, hb, hb ▸ recvByte_sync done s h⟩
    · exact .inr (.inl ⟨rfl, hb, recvByte_drop done b s h hb⟩)
  | hdrId => exact .inr (.inr (.inl ⟨rfl, recvByte_hdrId done b s h⟩))
  | hdrLenLo => exact .inr (.inr (.inr (.inl ⟨rfl, recvByte_hdrLenLo done b s h⟩)))
  | hdrLenHi =>
    by_cases hb : le16 s.rx.lenLo b = 0
    · exact .inr (.inr (.inr (.inr (.inr (.inl ⟨rfl, hb, recvByte_empty done b s h hb⟩)))))
    · exact .inr (.inr (.inr (.inr (.inl ⟨rfl, hb, recvByte_hdrLenHi done b s h hb⟩))))
  | payload =>
    by_cases hb : s.rx.buf.length + 1 = s.rx.len.toNat
    · exact .inr (.inr (.inr (.inr (.inr (.inr (.inr ⟨rfl, hb, recvByte_last done b s h hb⟩))))))
    · exact .inr (.inr (.inr (.inr (.inr (.inr (.inl ⟨rfl, hb, recvByte_payload done b s h hb⟩))))))

/-- A dropped byte counts; at the budget the pull completes with NoSyncFound (R197, R216). -/
theorem dropByte_cases (s : State) :
    (¬(s.rxc.cfg.budget ≠ 0 ∧ s.rxc.cfg.budget ≤ s.rx.huntRun + 1) ∧
      dropByte s =
        { s with
          rx := { s.rx with huntRun := s.rx.huntRun + 1 }
          cnt := { s.cnt with huntDrop := s.cnt.huntDrop + 1 } }) ∨
    ((s.rxc.cfg.budget ≠ 0 ∧ s.rxc.cfg.budget ≤ s.rx.huntRun + 1) ∧
      dropByte s = raise .rxc .noSyncFound
        { s with
          rx := { s.rx with huntRun := 0 }
          cnt := { s.cnt with huntDrop := s.cnt.huntDrop + 1, nosync := s.cnt.nosync + 1 }
          sticky := { s.sticky with nosync := true } }) := by
  by_cases h : s.rxc.cfg.budget ≠ 0 ∧ s.rxc.cfg.budget ≤ s.rx.huntRun + 1
  · exact .inr ⟨h, if_pos h⟩
  · exact .inl ⟨h, if_neg h⟩

/-- The receive step: a byte, the closure, or a hold (R192). -/
theorem recvStep_cases (done : Byte → List Byte → State → State) (s : State) :
    (∃ b s1, s.take = some (b, s1) ∧ recvStep done s = recvByte done b s1) ∨
    (s.take = none ∧ s.env.srcClosed = true ∧ recvStep done s = observeClosure s) ∨
    (s.take = none ∧ s.env.srcClosed = false ∧ recvStep done s = s) := by
  unfold recvStep
  cases h : s.take with
  | some p => obtain ⟨b, s1⟩ := p; exact .inl ⟨b, s1, rfl, rfl⟩
  | none => cases h2 : s.env.srcClosed <;> simp

end Sys2Proof.Machine
end

