-- ==== Sys2Proof/Laws/PerInstr.lean ====
section
/-! SUPPORT. Per-instruction laws: one lemma per constructor of Instr, for each family LAWS.json names. -/

/-! ### RoundTrip: a channel decodes the descriptor of a command to that command (R87 to R89). -/

namespace Sys2Proof.Laws.RoundTrip

/-- Decoding the encoded command on its own channel gives it back. -/
def Statement (i : Instr) : Prop := decode i.channel (encode i) = .ok i

theorem csum (c : Channel) (data : List Byte) : Statement (.csum c data) := by
  cases c <;> simp [Statement, encode, decode, Instr.channel, opChannels, opUsesA8, opUsesA16, opDlenOk, instrOf]

theorem build (c : Channel) (rid : Byte) (topic : Half) (data : List Byte) : Statement (.build c rid topic data) := by
  cases c <;> simp [Statement, encode, decode, Instr.channel, opChannels, opUsesA8, opUsesA16, opDlenOk, instrOf]

theorem extract (c : Channel) (data : List Byte) : Statement (.extract c data) := by
  cases c <;> simp [Statement, encode, decode, Instr.channel, opChannels, opUsesA8, opUsesA16, opDlenOk, instrOf]

theorem rxNextEnv : Statement .rxNextEnv := by
  simp [Statement, encode, decode, Instr.channel, opChannels, opUsesA8, opUsesA16, opDlenOk, instrOf]

theorem rxNextFrame : Statement .rxNextFrame := by
  simp [Statement, encode, decode, Instr.channel, opChannels, opUsesA8, opUsesA16, opDlenOk, instrOf]

theorem txSend (rid : Byte) (topic : Half) (data : List Byte) : Statement (.txSend rid topic data) := by
  simp [Statement, encode, decode, Instr.channel, opChannels, opUsesA8, opUsesA16, opDlenOk, instrOf]

theorem csrRead (off : Half) : Statement (.csrRead off) := by
  simp [Statement, encode, decode, Instr.channel, opChannels, opUsesA8, opUsesA16, opDlenOk, instrOf]

theorem csrWrite (off : Half) (v : Word) : Statement (.csrWrite off v) := by
  have h : laneWord (wordBytes v) = v := le32_wordBytes v
  simp [Statement, encode, decode, Instr.channel, opChannels, opUsesA8, opUsesA16, opDlenOk, instrOf, h]

end Sys2Proof.Laws.RoundTrip
end

