-- ==== Sys2Proof/Laws/Step.lean ====
section
/-! SUPPORT. What one step can do, said once: the meanings by the phase of their channel, a channel's step, a move, the step. -/

namespace Sys2Proof.Machine

/-! ### The meanings by phase -/

theorem execCsum_idle (c : Channel) (data : List Byte) (s : State) (h : (s.chan c).cmd = none) :
    exec (.csum c data) s = .next (complete c (csumResponse data) (accept c (.csum c data) s)) := by
  simp [exec, execCsum, oneStep_idle _ _ _ _ h]

theorem execBuild_idle (c : Channel) (rid : Byte) (topic : Half) (data : List Byte) (s : State)
    (h : (s.chan c).cmd = none) :
    exec (.build c rid topic data) s
      = .next (complete c (buildResponse rid topic data) (accept c (.build c rid topic data) s)) := by
  simp [exec, execBuild, oneStep_idle _ _ _ _ h]

theorem execExtract_idle (c : Channel) (data : List Byte) (s : State) (h : (s.chan c).cmd = none) :
    exec (.extract c data) s
      = .next (complete c (verdictResponse (extract data s.ctrl.strict)) (accept c (.extract c data) s)) := by
  simp [exec, execExtract, oneStep_idle _ _ _ _ h]

theorem execRxNextEnv_idle (s : State) (h : s.rxc.cmd = none) :
    exec .rxNextEnv s = .next (pullAccept .rxNextEnv s) := by
  simp [exec, execRxNextEnv, h]

theorem execRxNextEnv_pending (s : State) (h : s.rxc.cmd = some .rxNextEnv) :
    exec .rxNextEnv s = .next (recvStep envDone s) := by
  simp [exec, execRxNextEnv, h]

theorem execRxNextFrame_idle (s : State) (h : s.rxc.cmd = none) :
    exec .rxNextFrame s = .next (pullAccept .rxNextFrame s) := by
  simp [exec, execRxNextFrame, h]

theorem execRxNextFrame_pending (s : State) (h : s.rxc.cmd = some .rxNextFrame) :
    exec .rxNextFrame s = .next (recvStep frameDone s) := by
  simp [exec, execRxNextFrame, h]

theorem execTxSend_idle (rid : Byte) (topic : Half) (data : List Byte) (s : State) (h : s.txc.cmd = none) :
    exec (.txSend rid topic data) s
      = .next (sendAccept rid topic data (accept .txc (.txSend rid topic data) s)) := by
  simp [exec, execTxSend, h]

theorem execTxSend_waiting (rid : Byte) (topic : Half) (data : List Byte) (s : State)
    (h : s.txc.cmd = some (.txSend rid topic data)) :
    exec (.txSend rid topic data) s = .next (sendWait s) := by
  simp [exec, execTxSend, h]

theorem execCsrRead_idle (off : Half) (s : State) (h : s.ctlc.cmd = none) :
    exec (.csrRead off) s = .next
      (if csrOffsetOk off then complete .ctlc { Response.done with rval := csrValue off s } (accept .ctlc (.csrRead off) s)
       else raise .ctlc .illegalCommand s) := by
  simp [exec, execCsrRead, csrCommand_idle _ _ _ _ h]

theorem execCsrWrite_idle (off : Half) (v : Word) (s : State) (h : s.ctlc.cmd = none) :
    exec (.csrWrite off v) s = .next
      (if csrOffsetOk off then complete .ctlc Response.done (writeEffect off v (accept .ctlc (.csrWrite off v) s))
       else raise .ctlc .illegalCommand s) := by
  simp [exec, execCsrWrite, csrCommand_idle _ _ _ _ h]

/-! ### A channel's step -/

/-- A channel's step goes on with the command it executes, does nothing, refuses the placed command, or executes it. -/
theorem chanStep_cases (c : Channel) (s : State) :
    (∃ i, (s.chan c).cmd = some i ∧ chanStep c s = exec i s) ∨
    ((s.chan c).cmd = none ∧ (s.chan c).placed = none ∧ chanStep c s = .next s) ∨
    (∃ x e, (s.chan c).cmd = none ∧ (s.chan c).placed = some x ∧ decode c x = .error e ∧
      chanStep c s = .next (raise c .illegalCommand (unplace c s))) ∨
    (∃ x i, (s.chan c).cmd = none ∧ (s.chan c).placed = some x ∧ decode c x = .ok i ∧
      chanStep c s = exec i (unplace c s)) := by
  unfold chanStep
  cases h : (s.chan c).cmd with
  | some i => simp
  | none =>
    cases h2 : (s.chan c).placed with
    | none => simp
    | some x => cases h3 : decode c x <;> simp [h3]

/-! ### The draw -/

/-- The drawn move leaves everything but `moves` and `drawn`. -/
theorem draw_cases (s : State) :
    (∃ m ms, s.moves = m :: ms ∧ s.draw = (m, { s with moves := ms })) ∨
      (s.moves = [] ∧ s.draw = (Config.freeMove s.drawn, { s with drawn := s.drawn + 1 })) := by
  unfold State.draw
  cases h : s.moves <;> simp

@[simp] theorem draw_rx (s : State) : s.draw.2.rx = s.rx := by unfold State.draw; split <;> rfl
@[simp] theorem draw_ctrl (s : State) : s.draw.2.ctrl = s.ctrl := by unfold State.draw; split <;> rfl
@[simp] theorem draw_sticky (s : State) : s.draw.2.sticky = s.sticky := by unfold State.draw; split <;> rfl
@[simp] theorem draw_cnt (s : State) : s.draw.2.cnt = s.cnt := by unfold State.draw; split <;> rfl
@[simp] theorem draw_rxc (s : State) : s.draw.2.rxc = s.rxc := by unfold State.draw; split <;> rfl
@[simp] theorem draw_txc (s : State) : s.draw.2.txc = s.txc := by unfold State.draw; split <;> rfl
@[simp] theorem draw_ctlc (s : State) : s.draw.2.ctlc = s.ctlc := by unfold State.draw; split <;> rfl
@[simp] theorem draw_txEnv (s : State) : s.draw.2.txEnv = s.txEnv := by unfold State.draw; split <;> rfl
@[simp] theorem draw_rxClosed (s : State) : s.draw.2.rxClosed = s.rxClosed := by unfold State.draw; split <;> rfl
@[simp] theorem draw_txClosed (s : State) : s.draw.2.txClosed = s.txClosed := by unfold State.draw; split <;> rfl
@[simp] theorem draw_env (s : State) : s.draw.2.env = s.env := by unfold State.draw; split <;> rfl

/-! ### The step -/

/-- A step whose next move is listed is that move, made on the state without it. -/
theorem step_of_moves {s : State} {m : Move} {ms : List Move} (h : s.moves = m :: ms) :
    step s = applyMove m { s with moves := ms } := by
  simp [step, State.draw, h]

/-- Every meaning answers a next state: the block has no fault outcome (R288). -/
theorem exec_next (i : Instr) (s : State) : ∃ t, exec i s = .next t := by
  cases i with
  | csum c data => exact ⟨_, rfl⟩
  | build c rid topic data => exact ⟨_, rfl⟩
  | extract c data => exact ⟨_, rfl⟩
  | csrRead off => exact ⟨_, rfl⟩
  | csrWrite off v => exact ⟨_, rfl⟩
  | rxNextEnv =>
    simp only [exec, execRxNextEnv]
    split
    · exact ⟨_, rfl⟩
    · split <;> exact ⟨_, rfl⟩
  | rxNextFrame =>
    simp only [exec, execRxNextFrame]
    split
    · exact ⟨_, rfl⟩
    · split <;> exact ⟨_, rfl⟩
  | txSend rid topic data =>
    simp only [exec, execTxSend]
    split
    · exact ⟨_, rfl⟩
    · split <;> exact ⟨_, rfl⟩

/-- A run of k + 1 steps is the first step and a run of k. -/
theorem run_of_next (M : Host.Core) (k : Nat) {s t : M.State} (h : M.step s = .next t) : M.run (k + 1) s = M.run k t := by
  simp [Host.Core.run, h]

/-- A run of no steps. -/
theorem run_zero (M : Host.Core) (s : M.State) : M.run 0 s = .next s := rfl

end Sys2Proof.Machine
end

