-- ==== Sys2Proof/Tests/Slice0.lean ====
section
/-! SUPPORT. Small tests: the well-formedness smoke, a decode test per constructor, at most two behaviour tests per command, the table
words, and for every obligation with hypotheses a state and operands that meet them together. Expected values are those of
spec/95_test_vectors.md (the vector is named) or of the rule named. -/

namespace Sys2Proof.Tests

open Sys2Proof Sys2Proof.Machine

/-! ### Bytes and states of spec/95_test_vectors.md -/

/-- E1: topic 5, robot id 3, payload 01 02 03. -/
def e1 : List Byte := [0xFF, 0x03, 0x0B, 0x00, 0xFF, 0xFE, 0x03, 0x00, 0xFC, 0x05, 0x00, 0x01, 0x02, 0x03, 0xF4]

/-- I1: E1's inner frame. -/
def i1 : List Byte := [0xFF, 0xFE, 0x03, 0x00, 0xFC, 0x05, 0x00, 0x01, 0x02, 0x03, 0xF4]

/-- The inner frame of L2-X8, both checksums wrong. -/
def x8 : List Byte := [0xFF, 0xFE, 0x03, 0x00, 0x00, 0x05, 0x00, 0x01, 0x02, 0x03, 0x00]

/-- The 12-byte envelope of L2-T1. -/
def t1 : List Byte := [0xFF, 0x01, 0x08, 0x00, 0xFF, 0xFE, 0x00, 0x00, 0xFF, 0xD2, 0x00, 0x2D]

/-- After reset, with the pull `i` pending, the receive path at `rx`, and `q` in the source queue. -/
def pulling (i : Instr) (rx : RxPath) (q : List Byte) : State :=
  { State.reset with
    rx := rx
    rxc := { Chan.reset with cmd := some i }
    env := { Env.reset with srcQ := q } }

/-- The receive path in PAYLOAD of an envelope of robot 3, with `len` bytes declared and `buf` held. -/
def collecting (len : Half) (buf : List Byte) : RxPath := ⟨.payload, 0x03, len.extractLsb' 0 8, len, buf, [], 0⟩

/-- After reset, with L2-T1's TX_SEND waiting for the sink. -/
def sending : State :=
  { State.reset with txc := { Chan.reset with cmd := some (.txSend 0x01 0x00D2 []) }, txEnv := t1 }

/-- The last response on a channel. -/
def lastResp (c : Channel) (o : Host.Outcome State Fault Refusal) : Option Response :=
  match o with
  | .next t => (t.chan c).resp.getLast?
  | .fault _ => none
  | .refused _ => none

/-- A view of the next state. -/
def nextIs (o : Host.Outcome State Fault Refusal) (p : State → Bool) : Bool :=
  match o with
  | .next t => p t
  | .fault _ => false
  | .refused _ => false

/-! ### Well-formedness: a lane of 2^32 bytes has no DLEN (R61) -/

theorem laneFits_replicate (n : Nat) : laneFits (List.replicate n 0) = decide (n < 2 ^ 32) := by
  simp only [laneFits, List.length_replicate]

theorem smoke_wf_csum :
    (Instr.csum .rxc [0x14, 0x00]).wf = true ∧ (Instr.csum .rxc (List.replicate (2 ^ 32) 0)).wf = false :=
  ⟨by decide, laneFits_replicate (2 ^ 32)⟩

theorem smoke_wf_build :
    (Instr.build .txc 3 5 [1]).wf = true ∧ (Instr.build .txc 3 5 (List.replicate (2 ^ 32) 0)).wf = false :=
  ⟨by decide, laneFits_replicate (2 ^ 32)⟩

theorem smoke_wf_extract :
    (Instr.extract .ctlc []).wf = true ∧ (Instr.extract .ctlc (List.replicate (2 ^ 32) 0)).wf = false :=
  ⟨by decide, laneFits_replicate (2 ^ 32)⟩

theorem smoke_wf_txSend :
    (Instr.txSend 1 2 []).wf = true ∧ (Instr.txSend 1 2 (List.replicate (2 ^ 32) 0)).wf = false :=
  ⟨by decide, laneFits_replicate (2 ^ 32)⟩

theorem smoke_wf_descriptor :
    (Descriptor.mk 0 []).wf = true ∧ (Descriptor.mk 0 (List.replicate (2 ^ 32) 0)).wf = false :=
  ⟨by decide, laneFits_replicate (2 ^ 32)⟩

theorem smoke_wf_no_lane :
    Instr.rxNextEnv.wf = true ∧ Instr.rxNextFrame.wf = true ∧ (Instr.csrRead 0xFFFF).wf = true ∧ (Instr.csrWrite 0 0).wf = true := by
  decide

/-! ### Decode: the bytes of spec/95_test_vectors.md -/

/-- L2-C6, with a byte that follows the command. -/
theorem test_decode_csum :
    decodeBytes .rxc [0x01, 0, 0, 0, 0x02, 0, 0, 0, 0x14, 0x00, 0x99] = .ok (.csum .rxc [0x14, 0x00], [0x99]) := by decide

/-- L2-B1. -/
theorem test_decode_build :
    decodeBytes .txc [0x02, 0x03, 0x05, 0x00, 0x03, 0, 0, 0, 0x01, 0x02, 0x03] = .ok (.build .txc 3 5 [1, 2, 3], []) := by decide

/-- L2-X14. -/
theorem test_decode_extract :
    decodeBytes .ctlc [0x03, 0, 0, 0, 0x08, 0, 0, 0, 0xFF, 0xFE, 0, 0, 0xFF, 0x05, 0, 0xFA] =
      .ok (.extract .ctlc [0xFF, 0xFE, 0, 0, 0xFF, 0x05, 0, 0xFA], []) := by decide

/-- The encodings at the head of the stream reader's vectors. -/
theorem test_decode_rxNextEnv : decodeBytes .rxc [0x10, 0, 0, 0, 0, 0, 0, 0] = .ok (.rxNextEnv, []) := by decide

theorem test_decode_rxNextFrame : decodeBytes .rxc [0x11, 0, 0, 0, 0, 0, 0, 0] = .ok (.rxNextFrame, []) := by decide

/-- L2-T1. -/
theorem test_decode_txSend :
    decodeBytes .txc [0x20, 0x01, 0xD2, 0x00, 0, 0, 0, 0] = .ok (.txSend 0x01 0x00D2 [], []) := by decide

/-- L3-P1, command 5. -/
theorem test_decode_csrRead :
    decodeBytes .ctlc [0x30, 0, 0x10, 0x00, 0, 0, 0, 0] = .ok (.csrRead 0x10, []) := by decide

/-- L2-K8. -/
theorem test_decode_csrWrite :
    decodeBytes .ctlc [0x31, 0, 0x14, 0, 0x04, 0, 0, 0, 0x78, 0x56, 0x34, 0x12] = .ok (.csrWrite 0x14 0x12345678, []) := by decide

/-- L2-C10, L2-C11, L2-R14, L2-K12, L2-K15, L2-D4: what decode refuses, by name. -/
theorem test_decode_refusals :
    decodeBytes .rxc [0x01, 0x01, 0, 0, 0, 0, 0, 0] = .error .nonzeroA8 ∧
    decodeBytes .rxc [0x01, 0, 0x01, 0, 0, 0, 0, 0] = .error .nonzeroA16 ∧
    decodeBytes .ctlc [0x10, 0, 0, 0, 0, 0, 0, 0] = .error .wrongChannel ∧
    decodeBytes .rxc [0x10, 0, 0, 0, 0x01, 0, 0, 0, 0] = .error .wrongDlen ∧
    decodeBytes .ctlc [0x31, 0, 0, 0, 0x03, 0, 0, 0, 0x01, 0, 0] = .error .wrongDlen ∧
    decodeBytes .txc [0x31, 0, 0, 0, 0x04, 0, 0, 0, 0, 0, 0, 0] = .error .wrongChannel ∧
    decodeBytes .txc [0xFF, 0, 0, 0, 0, 0, 0, 0] = .error .undefinedOp ∧
    decodeBytes .txc [0x01, 0, 0, 0, 0x02, 0, 0, 0, 0x14] = .error .incomplete := by decide

/-- L2-C6: the encoder gives the spec's bytes back. -/
theorem test_encode_csum : (encode (.csum .rxc [0x14, 0x00])).bytes = [0x01, 0, 0, 0, 0x02, 0, 0, 0, 0x14, 0x00] := by decide

/-! ### The commands -/

/-- L2-C6. -/
theorem test_csum : lastResp .rxc (exec (.csum .rxc [0x14, 0x00]) State.reset) = some ⟨.ok, false, false, 0xEB, 0, []⟩ := by decide

/-- L2-C5: the sum wraps. -/
theorem test_csum_wraps : (lastResp .txc (exec (.csum .txc [0x80, 0x80]) State.reset)).map (·.word) = some 0x00FF0000 := by decide

/-- L2-B1. -/
theorem test_build : lastResp .ctlc (exec (.build .ctlc 3 5 [1, 2, 3]) State.reset) = some ⟨.ok, false, false, 0, 0, e1⟩ := by decide

/-- L2-B3: 0xFF in every field. -/
theorem test_build_ff :
    (lastResp .rxc (exec (.build .rxc 0xFF 0xFFFF [0xFF]) State.reset)).map (·.data) =
      some [0xFF, 0xFF, 0x09, 0x00, 0xFF, 0xFE, 0x01, 0x00, 0xFE, 0xFF, 0xFF, 0xFF, 0x02] := by decide

/-- L2-X3. -/
theorem test_extract : lastResp .txc (exec (.extract .txc i1) State.reset) = some ⟨.ok, false, false, 0, 5, [1, 2, 3]⟩ := by decide

/-- L2-X8 and L2-X9: the order of the tests, in both modes. -/
theorem test_extract_order :
    extract x8 true = ⟨.checksumMismatch, true, false, 0, []⟩ ∧ extract x8 false = ⟨.ok, true, true, 5, [1, 2, 3]⟩ ∧
    extract (i1.set 2 0x04) true = ⟨.checksumMismatch, true, false, 0, []⟩ ∧
    extract (i1.set 2 0x04) false = ⟨.badLength, true, false, 0, []⟩ := by decide

/-- L2-R1, the last step. -/
theorem test_rxNextEnv :
    lastResp .rxc (exec .rxNextEnv (pulling .rxNextEnv ⟨.payload, 0x07, 2, 2, [0xAA], [], 0⟩ [0xBB])) =
      some ⟨.ok, false, false, 0x07, 2, [0xAA, 0xBB]⟩ := by decide

/-- L2-R4, the last step of pull 1: an empty envelope completes on its high length byte. -/
theorem test_rxNextEnv_empty :
    lastResp .rxc (exec .rxNextEnv (pulling .rxNextEnv ⟨.hdrLenHi, 0x09, 0, 0, [], [], 0⟩ [0x00])) =
      some ⟨.ok, false, false, 0x09, 0, []⟩ := by decide

/-- L2-R9, the last step. -/
theorem test_rxNextFrame :
    lastResp .rxc (exec .rxNextFrame (pulling .rxNextFrame (collecting 11 (i1.take 10)) [0xF4])) =
      some ⟨.ok, false, false, 0x03, 5, [1, 2, 3]⟩ := by decide

/-- L2-R12, the last step of pull 2: the replayed bytes, put back before the 8 that are left. -/
theorem test_rxNextFrame_rescan :
    nextIs (exec .rxNextFrame
      { pulling .rxNextFrame ⟨.payload, 0xFE, 3, 3, [0xFC, 0x05], [0x00, 0x01, 0x02, 0x03, 0xF4, 0xFF, 0x04, 0x08, 0x00], 0⟩ [] with
        rxc := { Chan.reset with cmd := some .rxNextFrame, cfg := ⟨true, true, 0⟩ } })
      (fun t => t.rx.replay == [0xFE, 0x03, 0x00, 0xFC, 0x05, 0x00, 0x01, 0x02, 0x03, 0xF4, 0xFF, 0x04, 0x08, 0x00] &&
        t.cnt.badLen == 1 && t.sticky.rxReject) = true := by decide

/-- L2-T1, both steps. -/
theorem test_txSend : nextIs (exec (.txSend 0x01 0x00D2 []) State.reset) (fun t => t == sending) = true := by decide

theorem test_txSend_accepted :
    nextIs (applyMove .snkAccept sending) (fun t => t.env.snkLog == t1 && t.cnt.txOk == 1 && t.txEnv == []) = true := by decide

/-- L2-K1 and L2-R8's STATUS while a pull holds in HDR_LEN_LO. -/
theorem test_csrRead :
    lastResp .ctlc (exec (.csrRead 0x00) State.reset) = some ⟨.ok, false, false, 0, 0x00000001, []⟩ ∧
    lastResp .ctlc (exec (.csrRead 0x04) (pulling .rxNextEnv ⟨.hdrLenLo, 1, 0, 0, [], [], 0⟩ [])) =
      some ⟨.ok, false, false, 0, 0x0000000A, []⟩ := by decide

/-- L2-K11. -/
theorem test_csrRead_unmapped : (lastResp .ctlc (exec (.csrRead 0x38) State.reset)).map (·.status) = some .illegalCommand := by decide

/-- L2-K4: bits 30:2 are ignored and bit 31 is 0. -/
theorem test_csrWrite :
    nextIs (exec (.csrWrite 0x00 0x7FFFFFFD) State.reset) (fun t => csrValue 0x00 t == 0x00000001) = true := by decide

/-- L2-Z1, the soft reset: RXC's pull is aborted and CTRL is kept as written. -/
theorem test_csrWrite_reset :
    nextIs (exec (.csrWrite 0x00 0x80000002) (pulling .rxNextEnv (collecting 5 [0xAA]) []))
      (fun t => t.rxc.resp.map (·.word) == [0x0000000A] && csrValue 0x00 t == 2 && csrValue 0x04 t == 0) = true := by decide

/-! ### The table's words (log entry 14) -/

theorem test_table_decode :
    [0x01, 0x02, 0x03, 0x10, 0x11, 0x20, 0x30, 0x31].map (decodeTableWord 32) =
      [some (.csum .rxc []), some (.build .rxc 0 0 []), some (.extract .rxc []), some .rxNextEnv, some .rxNextFrame,
       some (.txSend 0 0 []), some (.csrRead 0), some (.csrWrite 0 0)] := by decide

theorem test_table_fields :
    decodeTableWord 32 0x00D20120 = some (.txSend 0x01 0x00D2 []) ∧ decodeTableWord 32 0x00000101 = none ∧
    decodeTableWord 80 0x00140000000200000001 = some (.csum .rxc [0x14, 0x00]) := by decide

theorem test_table_step : lastResp .rxc (step (State.reset.withFetchWord 32 0x01)) = some ⟨.ok, false, false, 0xFF, 0, []⟩ := by decide

/-! ### Witnesses: states and operands that meet the hypotheses of an obligation, one part per clause -/

/-- `s` with `m` as its next move. -/
def next (m : Move) (s : State) : State := { s with moves := [m] }

/-- `s` with the source closed. -/
def srcShutDown (s : State) : State := { s with env := { s.env with srcClosed := true } }

/-- `s` with the sink closed. -/
def snkShutDown (s : State) : State := { s with env := { s.env with snkClosed := true } }

/-- The state after SourceClosed (L2-R5) and SinkClosed (L2-T3). -/
def bothClosed : State := { snkShutDown (srcShutDown State.reset) with rxClosed := true, txClosed := true }

/-- A reset state where channel `c` holds the placed descriptor `x` and steps next. -/
def placedOn (c : Channel) (x : Descriptor) : State := placeNext c x State.reset

/-- A state whose listed next move is no reset makes none. -/
theorem no_reset_next (m : Move) (s : State) (h1 : m ≠ .powerOn) (h2 : m ≠ .chan .ctlc) : ¬(next m s).resetsNext := by
  simp [State.resetsNext, State.draw, next, h1, h2]

theorem witness_ChecksumForms : [2, 1].Perm [(1 : Byte), 2] := by decide

theorem witness_ChecksumDetection :
    [2, 1].Perm [(1 : Byte), 2] ∧ 0 < [(0x14 : Byte), 0].length ∧ byteAt [0x14, 0] 0 ≠ 0x15 ∧ 1 < [(0x14 : Byte), 0].length ∧
    byteAt [0x14, 0] 1 ≠ 0xFF ∧ ([(0x80 : Byte), 0x80].map BitVec.toNat).sum % 256 = (([] : List Byte).map BitVec.toNat).sum % 256 ∧
    (0xEC : Byte) ≠ checksum [0x14, 0] := by decide

theorem witness_CsumCompletes :
    (∀ c, (State.reset.chan c).cmd = none) ∧ (fieldOp 0x00000001 = 0x01 ∧ fieldA8 0x00000001 = 0 ∧ fieldA16 0x00000001 = 0) ∧
    (fieldOp 0x00000101 = 0x01 ∧ ¬(fieldA8 0x00000101 = 0 ∧ fieldA16 0x00000101 = 0)) ∧
    (fieldOp 0x00010001 = 0x01 ∧ ¬(fieldA8 0x00010001 = 0 ∧ fieldA16 0x00010001 = 0)) := by
  refine ⟨fun c => by cases c <;> rfl, ?_⟩
  decide

theorem replicate_length (n : Nat) : (List.replicate n (0 : Byte)).length = n := List.length_replicate

theorem witness_EnvelopeComposition :
    65527 < (List.replicate 65528 (0 : Byte)).length ∧ (List.replicate 65527 (0 : Byte)).length ≤ 65527 := by
  rw [replicate_length, replicate_length]; decide

theorem witness_EnvelopeProperties : build 5 3 [1, 2, 3] = some e1 ∧ build 0x00D2 1 [] = some t1 := by decide

theorem witness_BuildCompletes :
    (State.reset.chan .ctlc).cmd = none ∧ (List.replicate 65527 (0 : Byte)).length ≤ 65527 ∧
    65527 < (List.replicate 65528 (0 : Byte)).length ∧ fieldOp 0x00D60002 = 0x02 := by
  rw [replicate_length, replicate_length]; decide

theorem witness_OversizedPayloadRefused :
    65527 < (List.replicate 65541 (0 : Byte)).length ∧ (State.reset.chan .rxc).cmd = none ∧ State.reset.txc.cmd = none := by
  rw [replicate_length]; decide

theorem witness_SendBuildsThenCompletes :
    State.reset.txc.cmd = none ∧ State.reset.txClosed = false ∧ (List.replicate 65527 (0 : Byte)).length ≤ 65527 ∧
    State.reset.env.snkClosed = false := by
  rw [replicate_length]; decide

theorem witness_SinkAcceptsWhole :
    (sending.txc.cmd = some (.txSend 0x01 0x00D2 []) ∧ sending.env.snkClosed = false) ∧ State.reset.txc.cmd = none ∧
    (snkShutDown sending).env.snkClosed = true := by decide

theorem witness_SinkClosureReported :
    ((snkShutDown sending).txc.cmd = some (.txSend 0x01 0x00D2 []) ∧ (snkShutDown sending).env.snkClosed = true) ∧
    (BlockInv (next .srcClose bothClosed) ∧ (next .srcClose bothClosed).txClosed = true ∧
      ¬(next .srcClose bothClosed).resetsNext ∧ ∃ t, step (next .srcClose bothClosed) = .next t) ∧
    (bothClosed.txc.cmd = none ∧ bothClosed.txClosed = true ∧ ([] : List Byte).length ≤ 65527) :=
  ⟨by decide, ⟨by decide, by decide, no_reset_next _ _ (by decide) (by decide), _, rfl⟩, by decide⟩

theorem witness_SendHoldLifted :
    BlockInv (next .snkAccept sending) ∧ (next .snkAccept sending).txc.cmd = some (.txSend 0x01 0x00D2 []) ∧
    ∃ t, step (next .snkAccept sending) = .next t := ⟨by decide, by decide, _, rfl⟩

theorem witness_OnlyPathsTouchStreams :
    (BlockInv (next .snkAccept sending) ∧ ∃ t, step (next .snkAccept sending) = .next t) ∧
    (BlockInv (next (.chan .rxc) (pulling .rxNextEnv (RxPath.idle [] 0) e1)) ∧
      ∃ t, step (next (.chan .rxc) (pulling .rxNextEnv (RxPath.idle [] 0) e1)) = .next t) :=
  ⟨⟨by decide, _, rfl⟩, by decide, _, rfl⟩

theorem witness_ExtractInOrder :
    ((true = true ↔ checksum (slice x8 2 4) ≠ byteAt x8 4) ∧
      (true = true ↔ checksum (slice x8 5 (7 + (le16 (byteAt x8 2) (byteAt x8 3)).toNat)) ≠
        byteAt x8 (7 + (le16 (byteAt x8 2) (byteAt x8 3)).toNat))) ∧
    ((false = true ↔ checksum (slice i1 2 4) ≠ byteAt i1 4) ∧
      (false = true ↔ checksum (slice i1 5 (7 + (le16 (byteAt i1 2) (byteAt i1 3)).toNat)) ≠
        byteAt i1 (7 + (le16 (byteAt i1 2) (byteAt i1 3)).toNat))) := by decide

theorem witness_ExtractSuccess : (extract i1 true).status = .ok ∧ (extract x8 false).status = .ok := by decide

theorem witness_LegacyExtraction :
    (extract i1 true).status ≠ .checksumMismatch ∧ (extract x8 true).status = .checksumMismatch := by decide

theorem witness_ExtractOfBuild : [(1 : Byte), 2, 3].length ≤ 65527 ∧ build 5 3 [1, 2, 3] = some e1 := by decide

theorem witness_SingleByteDetection :
    build 5 3 [1, 2, 3] = some e1 ∧ i1 = e1.drop 4 ∧
    ∀ k ∈ [0, 1, 2, 3, 4, 5, 6, 7, 9, 10], k < i1.length ∧ byteAt i1 k ≠ 0x77 := by decide

theorem witness_ExtractCompletes :
    (State.reset.chan .rxc).cmd = none ∧ (fieldOp 0x00000003 = 0x03 ∧ fieldA8 0x00000003 = 0 ∧ fieldA16 0x00000003 = 0) ∧
    (fieldOp 0x00000103 = 0x03 ∧ ¬(fieldA8 0x00000103 = 0 ∧ fieldA16 0x00000103 = 0)) := by decide

theorem witness_PullAccepted :
    (State.reset.rxc.cmd = none ∧ State.reset.rxClosed = false) ∧ bothClosed.rxc.cmd = none ∧ bothClosed.rxClosed = true := by decide

theorem witness_TakeOrder :
    (pulling .rxNextEnv (RxPath.idle [1, 2] 0) [3]).rx.replay = [1, 2] ∧
    ((pulling .rxNextEnv (RxPath.idle [] 0) [3]).rx.replay = [] ∧ (pulling .rxNextEnv (RxPath.idle [] 0) [3]).env.srcQ = [3]) ∧
    (State.reset.rx.replay = [] ∧ State.reset.env.srcQ = []) := by decide

/-- The budget of 3 of L2-R7, with `run` bytes dropped before. -/
def budgeted (run : Word) (q : List Byte) : State :=
  { pulling .rxNextEnv (RxPath.idle [] run) q with rxc := { Chan.reset with cmd := some .rxNextEnv, cfg := ⟨true, false, 3⟩ } }

theorem witness_HuntStep :
    (budgeted 2 [0xFF]).rxc.cmd = some .rxNextEnv ∧ (budgeted 2 [0xFF]).rx.st = .hunt ∧ (∃ s1, (budgeted 2 [0xFF]).take = some (0xFF, s1)) ∧
    (∃ s1, (budgeted 1 [0x02]).take = some (0x02, s1)) ∧ ¬((3 : Word) ≠ 0 ∧ (3 : Word) ≤ (budgeted 1 [0x02]).rx.huntRun + 1) ∧
    (∃ s1, (budgeted 2 [0x03]).take = some (0x03, s1)) ∧ ((3 : Word) ≠ 0 ∧ (3 : Word) ≤ (budgeted 2 [0x03]).rx.huntRun + 1) :=
  ⟨rfl, rfl, ⟨_, rfl⟩, ⟨_, rfl⟩, by decide, ⟨_, rfl⟩, by decide⟩

theorem witness_HeaderBytesTaken :
    (∃ s1, (pulling .rxNextFrame ⟨.hdrId, 0, 0, 0, [], [], 0⟩ [0xFF]).take = some (0xFF, s1)) ∧
    ∃ s1, (pulling .rxNextFrame ⟨.hdrLenLo, 3, 0, 0, [], [], 0⟩ [0xFF]).take = some (0xFF, s1) := ⟨⟨_, rfl⟩, _, rfl⟩

theorem witness_PayloadCollected :
    ((∃ s1, (pulling .rxNextEnv ⟨.hdrLenHi, 3, 1, 0, [], [], 0⟩ [0x00]).take = some (0x00, s1)) ∧ le16 1 0 ≠ 0) ∧
    ((∃ s1, (pulling .rxNextEnv (collecting 2 []) [0xFF]).take = some (0xFF, s1)) ∧ ([] : List Byte).length + 1 < (2 : Half).toNat) :=
  ⟨⟨⟨_, rfl⟩, by decide⟩, ⟨_, rfl⟩, by decide⟩

theorem witness_EnvelopeReturned :
    (∃ s1, CompletesEnvelope (pulling .rxNextEnv (collecting 11 (i1.take 10)) [0xF4]) s1 i1) ∧
    ∃ s1, CompletesEnvelope (pulling .rxNextEnv ⟨.hdrLenHi, 9, 0, 0, [], [], 0⟩ [0x00]) s1 [] :=
  ⟨⟨_, 0xF4, rfl, .inl (by decide)⟩, _, 0x00, rfl, .inr (by decide)⟩

/-- The last step of L2-R9, with the byte `b` to come and the snapshot `k`. -/
def lastByte (b : Byte) (k : Cfg) : State :=
  { pulling .rxNextFrame (collecting 11 (i1.take 10)) [b] with rxc := { Chan.reset with cmd := some .rxNextFrame, cfg := k } }

theorem witness_FrameAccepted :
    (lastByte 0xF4 Cfg.reset).rxc.cmd = some .rxNextFrame ∧ (∃ s1, CompletesEnvelope (lastByte 0xF4 Cfg.reset) s1 i1) ∧
    (extract i1 (lastByte 0xF4 Cfg.reset).rxc.cfg.strict).status = .ok :=
  ⟨rfl, ⟨_, 0xF4, rfl, .inl (by decide)⟩, by decide⟩

theorem witness_FrameRejected :
    (lastByte 0x00 Cfg.reset).rxc.cmd = some .rxNextFrame ∧
    (∃ s1, CompletesEnvelope (lastByte 0x00 Cfg.reset) s1 (i1.take 10 ++ [0x00])) ∧
    (extract (i1.take 10 ++ [0x00]) (lastByte 0x00 Cfg.reset).rxc.cfg.strict).status ≠ .ok :=
  ⟨rfl, ⟨_, 0x00, rfl, .inl (by decide)⟩, by decide⟩

theorem witness_RescanReplays :
    ((∃ s1, CompletesEnvelope (lastByte 0x00 ⟨true, true, 0⟩) s1 (i1.take 10 ++ [0x00])) ∧
      (lastByte 0x00 ⟨true, true, 0⟩).rxc.cfg.rescan = true ∧
      (extract (i1.take 10 ++ [0x00]) (lastByte 0x00 ⟨true, true, 0⟩).rxc.cfg.strict).status ≠ .ok) ∧
    ((budgeted 0 [1]).rxc.cmd = some .rxNextEnv ∧ ∃ t, exec .rxNextEnv (budgeted 0 [1]) = .next t) :=
  ⟨⟨⟨_, 0x00, rfl, .inl (by decide)⟩, by decide⟩, rfl, _, rfl⟩

theorem witness_FrameIsEnvThenExtract :
    (lastByte 0xF4 Cfg.reset).rxc.cfg.rescan = false ∧ (∃ s1, CompletesEnvelope (lastByte 0xF4 Cfg.reset) s1 i1) ∧
    (∃ t, exec .rxNextFrame (lastByte 0xF4 Cfg.reset) = .next t) ∧
    (∃ u, exec .rxNextEnv (pulling .rxNextEnv (collecting 11 (i1.take 10)) [0xF4]) = .next u) ∧
    (State.reset.chan .txc).cmd = none ∧ State.reset.ctrl.strict = (lastByte 0xF4 Cfg.reset).rxc.cfg.strict :=
  ⟨rfl, ⟨_, 0xF4, rfl, .inl (by decide)⟩, ⟨_, rfl⟩, ⟨_, rfl⟩, rfl, rfl⟩

/-- L2-R5: a partial envelope, nothing left, the source closed. -/
def drained : State := srcShutDown (pulling .rxNextEnv (collecting 5 [0xAA]) [])

theorem witness_ClosureObserved :
    drained.rxc.cmd = some .rxNextEnv ∧ drained.rx.replay = [] ∧ drained.env.srcQ = [] ∧ drained.env.srcClosed = true := by decide

/-- L2-R8: a pull that holds in HDR_LEN_LO. -/
def held : State := pulling .rxNextEnv ⟨.hdrLenLo, 1, 0, 0, [], [], 0⟩ []

theorem witness_HeldPullWaits :
    (held.rxc.cmd = some .rxNextEnv ∧ held.rx.replay = [] ∧ held.env.srcQ = [] ∧ held.env.srcClosed = false) ∧
    BlockInv (next (.chan .rxc) held) ∧ ∃ t, step (next (.chan .rxc) held) = .next t := ⟨by decide, by decide, _, rfl⟩

theorem witness_TimeoutDraw :
    (held.rxc.cmd = some .rxNextEnv ∧ held.rx.replay = [] ∧ held.env.srcQ = [] ∧ held.env.srcClosed = false) ∧
    (pulling .rxNextFrame (RxPath.idle [1] 0) []).rx.replay ≠ [] ∧ (pulling .rxNextFrame (RxPath.idle [] 0) [1]).env.srcQ ≠ [] ∧
    drained.env.srcClosed = true := by decide

theorem witness_ReplayNeverOverflows :
    BlockInv (next .srcClose held) ∧ ∃ t, Host.Core.run core 1 (next .srcClose held) = .next t := ⟨by decide, _, rfl⟩

/-- A state at the start of L2-R1's pull, with the 7 steps it takes as the next moves. -/
def atNoise : State :=
  { pulling .rxNextEnv (RxPath.idle [] 0) [0x00, 0xFF, 0x07, 0x02, 0x00, 0xAA, 0xBB] with
    moves := List.replicate 7 (.chan .rxc) ++ [.srcClose] }

theorem witness_ReaderMatchesSource :
    atNoise.rxc.cmd = some .rxNextEnv ∧ atNoise.rxc.cfg.budget = 0 ∧ atNoise.rx.st = .hunt ∧ atNoise.rx.replay = [] ∧
    sourceEnvelope atNoise.env.srcQ = some (0x07, [0xAA, 0xBB], []) ∧
    atNoise.moves = List.replicate (atNoise.env.srcQ.length - ([] : List Byte).length) (.chan .rxc) ++ [.srcClose] := by decide

theorem witness_NoiseThenEnvelope : build 5 3 [1, 2, 3] = some e1 ∧ ∀ b ∈ [(0x22 : Byte), 0x33], b ≠ 0xFF := by decide

theorem witness_DeliveryCommutes : atNoise.pullPending = true ∧ atNoise.take ≠ none := by decide

theorem witness_PullEndsOneWay :
    BlockInv atNoise ∧ atNoise.rxc.cmd = some .rxNextEnv ∧ ∃ t, step atNoise = .next t := ⟨by decide, by decide, _, rfl⟩

theorem witness_ReceivePathOwnership :
    (BlockInv (next .srcClose held) ∧ (∃ t, step (next .srcClose held) = .next t) ∧ (next .srcClose held).draw.1 ≠ .chan .rxc ∧
      ¬(next .srcClose held).resetsNext) ∧
    ((collecting 5 [0xAA]).st = (collecting 5 []).st ∧ (collecting 5 [0xAA]).replay.length = (collecting 5 []).replay.length) :=
  ⟨⟨by decide, ⟨_, rfl⟩, by decide, no_reset_next _ _ (by decide) (by decide)⟩, by decide⟩

theorem witness_NoRescanNoReplay :
    BlockInv atNoise ∧ atNoise.ctrl.rescan = false ∧ atNoise.rxc.cfg.rescan = false ∧ atNoise.rx.replay = [] ∧
    ∃ t, step atNoise = .next t := ⟨by decide, by decide, by decide, by decide, _, rfl⟩

theorem witness_CsrReadReturnsValue :
    State.reset.ctlc.cmd = none ∧ ((0x00 : Half), (1 : Word)) ∈ csrTable State.reset ∧ ((0x34 : Half), (0 : Word)) ∈ csrTable State.reset ∧
    ((0x04 : Half), (0x0A : Word)) ∈ csrTable held := by decide

theorem witness_ReservedBitsReadZero : BlockInv held ∧ 2 ≤ 2 ∧ 5 ∈ [5, 6, 7, 10, 11, 12, 13, 14, 15] ∧ 19 ≤ 19 := by decide

theorem witness_CsrOffsetRefused :
    State.reset.ctlc.cmd = none ∧
    ∀ off ∈ [(0x02 : Half), 0x37, 0x38, 0x3C, 0x40, 0xFFFC], off.toNat % 4 ≠ 0 ∨ 0x38 ≤ off.toNat := by simp [State.reset, Chan.reset]

theorem witness_CsrWriteEffects : State.reset.ctlc.cmd = none ∧ (0x7FFFFFFF : Word).getLsbD 31 = false := by decide

theorem witness_CounterWriteClears :
    State.reset.ctlc.cmd = none ∧
    ∀ off ∈ [(0x10 : Half), 0x34], off.toNat % 4 = 0 ∧ 0x10 ≤ off.toNat ∧ off.toNat < 0x38 := by simp [State.reset, Chan.reset]

theorem witness_SoftResetState : drained.ctlc.cmd = none ∧ (0x80000002 : Word).getLsbD 31 = true := by decide

theorem witness_PowerOnResetState :
    (∃ t, t = State.reset) ∧ (∃ t, applyMove .powerOn drained = .next t) ∧ (0x34 : Half) ≠ 0x00 ∧ csrOffsetOk 0x34 = true :=
  ⟨⟨_, rfl⟩, ⟨_, rfl⟩, by decide, by decide⟩

theorem witness_EnvironmentAcrossReset :
    (∃ t, applyMove .powerOn drained = .next t) ∧ drained.env.srcClosed = true ∧ drained.env.srcQ = [] ∧
    ((0x80000001 : Word).getLsbD 31 = true ∧ drained.ctlc.cmd = none ∧ ∃ t, exec (.csrWrite 0x00 0x80000001) drained = .next t) ∧
    (budgeted 0 [1, 2]).env.srcQ = 1 :: [2] :=
  ⟨⟨_, rfl⟩, by decide, by decide, ⟨by decide, by decide, _, rfl⟩, by decide⟩

theorem witness_ClosureLatched :
    BlockInv (next .srcClose bothClosed) ∧ (∃ t, step (next .srcClose bothClosed) = .next t) ∧
    ¬(next .srcClose bothClosed).resetsNext ∧ bothClosed.rxClosed = true ∧ bothClosed.txClosed = true :=
  ⟨by decide, ⟨_, rfl⟩, no_reset_next _ _ (by decide) (by decide), by decide, by decide⟩

theorem witness_RunningCommandKeepsSnapshot :
    (∃ t, exec (.csrWrite 0x08 3) held = .next t) ∧
    ((held.chan Instr.rxNextEnv.channel).cmd = some .rxNextEnv ∧ ∃ t, exec .rxNextEnv held = .next t) ∧
    ((State.reset.chan Instr.rxNextFrame.channel).cmd = none ∧ (∀ off, Instr.rxNextFrame ≠ .csrRead off) ∧
      (∀ off v, Instr.rxNextFrame ≠ .csrWrite off v) ∧ ∃ t, exec .rxNextFrame State.reset = .next t) :=
  ⟨⟨_, rfl⟩, ⟨by decide, _, rfl⟩, by decide, by simp, by simp, _, rfl⟩

theorem witness_CounterVisibility :
    BlockInv atNoise ∧ (∃ t, step atNoise = .next t ∧ t.cnt.huntDrop ≠ atNoise.cnt.huntDrop) ∧ atNoise.draw.1 ≠ .powerOn ∧
    BlockInv (next .snkAccept sending) ∧
    nextIs (step (next .snkAccept sending)) (fun t => t.cnt.txOk == 1) = true :=
  ⟨by decide, ⟨_, rfl, by decide⟩, by decide, by decide, by decide⟩

theorem witness_DecodeRefusals :
    decode .rxc ⟨0x00000001, [0x14, 0x00]⟩ = .ok (.csum .rxc [0x14, 0x00]) ∧
    ((placedOn .rxc ⟨0x00000101, []⟩).rxc.cmd = none ∧ (placedOn .rxc ⟨0x00000101, []⟩).rxc.placed = some ⟨0x00000101, []⟩ ∧
      decode .rxc ⟨0x00000101, []⟩ = .error .nonzeroA8) := by decide

theorem witness_DecodeEncodeRoundTrip : (Instr.csum .rxc [0x14, 0x00]).wf = true ∧ (Instr.csrWrite 0xFFFF 0xFFFFFFFF).wf = true := by decide

theorem witness_StepRunsDecoded :
    (placedOn .rxc ⟨0x00000010, []⟩).moves = [.chan .rxc] ∧ (placedOn .rxc ⟨0x00000010, []⟩).rxc.cmd = none ∧
    (placedOn .rxc ⟨0x00000010, []⟩).rxc.placed = some ⟨0x00000010, []⟩ ∧
    decode .rxc ⟨0x00000010, []⟩ = .ok .rxNextEnv ∧ Instr.rxNextEnv.wf = true ∧
    (next (.chan .rxc) held).moves = [.chan .rxc] ∧ (next (.chan .rxc) held).rxc.cmd = some .rxNextEnv := by decide

theorem witness_NoFaultOutcome :
    (held.pullPending = true ∧ held.rxc.cmd = some .rxNextEnv ∧ held.rx.replay = [] ∧ held.env.srcQ = [] ∧
      held.env.srcClosed = false) ∧
    (sending.sendWaiting = true ∧ sending.env.snkClosed = false) ∧ held.busy .rxc = true := by decide

theorem witness_StepKeepsInvariant : BlockInv atNoise ∧ ∃ t, step atNoise = .next t := ⟨by decide, _, rfl⟩

end Sys2Proof.Tests
end

section
/-! PROOFS. What one step of the machine can do, said once: `Transition s m t` lists every state `t` that the move `m` can leave,
with the guards, and `step_transition` ties it to `step`. A claim about every step is then a case analysis on `Transition`. -/

namespace Sys2Proof.Machine

/-! ### The commands that run over several steps -/

theorem isPull_iff (i : Instr) : isPull i = true ↔ i = .rxNextEnv ∨ i = .rxNextFrame := by
  cases i <;> simp [isPull, Instr.op]

/-- Only a TX_SEND builds an envelope for the sink. -/
theorem txSend_of_sendEnvelope {i : Instr} {e : List Byte} (h : sendEnvelope i = some e) :
    ∃ rid topic data, i = .txSend rid topic data := by
  cases i with
  | txSend rid topic data => exact ⟨rid, topic, data, rfl⟩
  | _ => simp [sendEnvelope] at h

theorem sendWaiting_iff (s : State) :
    s.sendWaiting = true ↔ ∃ rid topic data, s.txc.cmd = some (.txSend rid topic data) := by
  unfold State.sendWaiting
  cases s.txc.cmd with
  | none => simp
  | some i => cases i <;> simp [Instr.op]

/-- What a pull does with a completed envelope (R208, R209). -/
def pullDone : Instr → Byte → List Byte → State → State
  | .rxNextFrame => frameDone
  | _ => envDone

theorem exec_pull_idle {i : Instr} {s : State} (hi : isPull i = true) (h : s.rxc.cmd = none) :
    exec i s = .next (pullAccept i s) := by
  rcases (isPull_iff i).1 hi with rfl | rfl
  · exact execRxNextEnv_idle s h
  · exact execRxNextFrame_idle s h

theorem exec_pull_pending {i : Instr} {s : State} (hi : isPull i = true) (h : s.rxc.cmd = some i) :
    exec i s = .next (recvStep (pullDone i) s) := by
  rcases (isPull_iff i).1 hi with rfl | rfl
  · exact execRxNextEnv_pending s h
  · exact execRxNextFrame_pending s h

/-! ### The step as a relation -/

/-- What the move `m` can do, from a state whose running commands are those R10 allows. -/
inductive Transition (s : State) : Move → State → Prop where
  /-- A move that is not enabled (log entry 1). -/
  | stutter {m : Move} (same : applyMove m s = .next s) : Transition s m s
  /-- The placed command does not decode (R90). -/
  | refuse {c : Channel} {x : Descriptor} {e : Reject} (idle : (s.chan c).cmd = none)
      (placed : (s.chan c).placed = some x) (decoded : decode c x = .error e) :
      Transition s (.chan c) (raise c .illegalCommand (unplace c s))
  /-- A CSR command names no register (R242). -/
  | refuseOffset {x : Descriptor} {i : Instr} {off : Half} (idle : s.ctlc.cmd = none) (placed : s.ctlc.placed = some x)
      (decoded : decode .ctlc x = .ok i) (csr : i = .csrRead off ∨ ∃ v, i = .csrWrite off v)
      (bad : csrOffsetOk off = false) :
      Transition s (.chan .ctlc) (raise .ctlc .illegalCommand (unplace .ctlc s))
  /-- A pure command or CSR_READ: accepted and completed, and nothing else changes (R79, R241). -/
  | answer {c : Channel} {x : Descriptor} {i : Instr} {r : Response} (idle : (s.chan c).cmd = none)
      (placed : (s.chan c).placed = some x) (decoded : decode c x = .ok i)
      (answers : exec i (unplace c s) = .next (complete c r (accept c i (unplace c s)))) :
      Transition s (.chan c) (complete c r (accept c i (unplace c s)))
  /-- CSR_WRITE to a register (R245). -/
  | csrWrite {x : Descriptor} {off : Half} {v : Word} (idle : s.ctlc.cmd = none) (placed : s.ctlc.placed = some x)
      (decoded : decode .ctlc x = .ok (.csrWrite off v)) (good : csrOffsetOk off = true) :
      Transition s (.chan .ctlc)
        (complete .ctlc Response.done (writeEffect off v (accept .ctlc (.csrWrite off v) (unplace .ctlc s))))
  /-- RXC accepts a pull (R191). -/
  | pullAccept {x : Descriptor} {i : Instr} (idle : s.rxc.cmd = none) (placed : s.rxc.placed = some x)
      (decoded : decode .rxc x = .ok i) (pull : isPull i = true) :
      Transition s (.chan .rxc) (pullAccept i (unplace .rxc s))
  /-- RXC goes on with its pull (R192). -/
  | receive {i : Instr} (pending : s.rxc.cmd = some i) (pull : isPull i = true) :
      Transition s (.chan .rxc) (recvStep (pullDone i) s)
  /-- TXC accepts a TX_SEND (R145). -/
  | sendAccept {x : Descriptor} {rid : Byte} {topic : Half} {data : List Byte} (idle : s.txc.cmd = none)
      (placed : s.txc.placed = some x) (decoded : decode .txc x = .ok (.txSend rid topic data)) :
      Transition s (.chan .txc)
        (sendAccept rid topic data (accept .txc (.txSend rid topic data) (unplace .txc s)))
  /-- TXC goes on with its TX_SEND (R146, R148). -/
  | sendWait {rid : Byte} {topic : Half} {data : List Byte} (waiting : s.txc.cmd = some (.txSend rid topic data)) :
      Transition s (.chan .txc) (sendWait s)
  /-- A held pull times out (R222). -/
  | timeout (enabled : Config.timeoutEnabled = true) (holds : s.pullHolds = true) :
      Transition s .timeout (raise .rxc .timeout s)
  /-- The host places a command (R11). -/
  | place {c : Channel} {x : Descriptor} (idle : (s.chan c).cmd = none) (empty : (s.chan c).placed = none)
      (wf : x.wf = true) : Transition s (.place c x) (s.setChan c { s.chan c with placed := some x })
  /-- SRC delivers a byte (R40). -/
  | srcByte {b : Byte} (isOpen : s.env.srcClosed = false) :
      Transition s (.srcByte b) { s with env := { s.env with srcQ := s.env.srcQ ++ [b] } }
  /-- SRC closes (R40). -/
  | srcClose : Transition s .srcClose (srcShut s)
  /-- SNK takes the waiting envelope (R147). -/
  | snkAccept (waiting : s.sendWaiting = true) (isOpen : s.env.snkClosed = false) :
      Transition s .snkAccept
        (complete .txc Response.done
          { s with
            env := { s.env with snkLog := s.env.snkLog ++ s.txEnv }
            txEnv := []
            cnt := { s.cnt with txOk := s.cnt.txOk + 1 } })
  /-- SNK closes (R41). -/
  | snkClose : Transition s .snkClose (snkShut s)
  /-- Power-on reset (R291). -/
  | powerOn : Transition s .powerOn (powerOnReset s)

/-- A busy channel goes on with a pull on RXC or with a TX_SEND on TXC. -/
theorem busy_transition {s t : State} {c : Channel} {i : Instr} (hs : CommandRule s) (hi : (s.chan c).cmd = some i)
    (h : exec i s = .next t) : Transition s (.chan c) t := by
  obtain ⟨hrx, hct, htx, -⟩ := hs
  cases c with
  | rxc =>
    rw [chan_rxc] at hi
    have hp : isPull i = true := by simpa [hi] using hrx
    rw [exec_pull_pending hp hi] at h
    cases h
    exact .receive hi hp
  | txc =>
    rw [chan_txc] at hi
    have he : sendEnvelope i = some s.txEnv := by simpa [hi] using htx
    obtain ⟨rid, topic, data, rfl⟩ := txSend_of_sendEnvelope he
    rw [execTxSend_waiting _ _ _ _ hi] at h
    cases h
    exact .sendWait hi
  | ctlc => simp [hct] at hi

/-- An idle channel executes the command it decoded. -/
theorem idle_transition {s t : State} {c : Channel} {x : Descriptor} {i : Instr} (idle : (s.chan c).cmd = none)
    (placed : (s.chan c).placed = some x) (decoded : decode c x = .ok i) (h : exec i (unplace c s) = .next t) :
    Transition s (.chan c) t := by
  obtain rfl := decode_channel decoded
  have hu : ((unplace i.channel s).chan i.channel).cmd = none := by simpa using idle
  cases i with
  | csum c data =>
    have he := execCsum_idle c data _ hu
    cases he.symm.trans h
    exact .answer idle placed decoded he
  | build c rid topic data =>
    have he := execBuild_idle c rid topic data _ hu
    cases he.symm.trans h
    exact .answer idle placed decoded he
  | extract c data =>
    have he := execExtract_idle c data _ hu
    cases he.symm.trans h
    exact .answer idle placed decoded he
  | rxNextEnv =>
    cases (execRxNextEnv_idle _ hu).symm.trans h
    exact .pullAccept idle placed decoded rfl
  | rxNextFrame =>
    cases (execRxNextFrame_idle _ hu).symm.trans h
    exact .pullAccept idle placed decoded rfl
  | txSend rid topic data =>
    cases (execTxSend_idle rid topic data _ hu).symm.trans h
    exact .sendAccept idle placed decoded
  | csrRead off =>
    have he := execCsrRead_idle off _ hu
    cases hoff : csrOffsetOk off with
    | true =>
      rw [if_pos hoff] at he
      cases he.symm.trans h
      exact .answer idle placed decoded he
    | false =>
      rw [if_neg (by simp [hoff])] at he
      cases he.symm.trans h
      exact .refuseOffset idle placed decoded (.inl rfl) hoff
  | csrWrite off v =>
    have he := execCsrWrite_idle off v _ hu
    cases hoff : csrOffsetOk off with
    | true =>
      rw [if_pos hoff] at he
      cases he.symm.trans h
      exact .csrWrite idle placed decoded hoff
    | false =>
      rw [if_neg (by simp [hoff])] at he
      cases he.symm.trans h
      exact .refuseOffset idle placed decoded (.inr ⟨v, rfl⟩) hoff

theorem chanStep_transition {s t : State} {c : Channel} (hs : CommandRule s) (h : chanStep c s = .next t) :
    Transition s (.chan c) t := by
  rcases chanStep_cases c s with ⟨i, hi, he⟩ | ⟨-, -, he⟩ | ⟨x, e, idle, placed, decoded, he⟩ |
    ⟨x, i, idle, placed, decoded, he⟩
  · exact busy_transition hs hi (he.symm.trans h)
  · cases he.symm.trans h
    exact .stutter he
  · cases he.symm.trans h
    exact .refuse idle placed decoded
  · exact idle_transition idle placed decoded (he.symm.trans h)

theorem applyMove_transition {s t : State} {m : Move} (hs : CommandRule s) (h : applyMove m s = .next t) :
    Transition s m t := by
  cases m with
  | chan c => exact chanStep_transition hs h
  | timeout =>
    cases h
    rcases timeoutStep_cases s with he | ⟨enabled, holds, he⟩ <;> rw [he]
    · exact .stutter (congrArg Host.Outcome.next he)
    · exact .timeout enabled holds
  | place c x =>
    cases h
    rcases hostPlace_cases c x s with he | ⟨idle, empty, wf, he⟩ <;> rw [he]
    · exact .stutter (congrArg Host.Outcome.next he)
    · exact .place idle empty wf
  | srcByte b =>
    cases h
    rcases srcDeliver_cases b s with ⟨he, -⟩ | ⟨isOpen, he⟩ <;> rw [he]
    · exact .stutter (congrArg Host.Outcome.next he)
    · exact .srcByte isOpen
  | srcClose => cases h; exact .srcClose
  | snkAccept =>
    cases h
    rcases sinkAccept_cases s with he | ⟨waiting, isOpen, he⟩ <;> rw [he]
    · exact .stutter (congrArg Host.Outcome.next he)
    · exact .snkAccept waiting isOpen
  | snkClose => cases h; exact .snkClose
  | powerOn => cases h; exact .powerOn

@[simp] theorem draw_chan (s : State) (c : Channel) : s.draw.2.chan c = s.chan c := by
  cases c <;> simp

@[simp] theorem draw_pullPending (s : State) : s.draw.2.pullPending = s.pullPending := by
  simp [State.pullPending]

@[simp] theorem draw_sendWaiting (s : State) : s.draw.2.sendWaiting = s.sendWaiting := by
  simp [State.sendWaiting]

theorem draw_commandRule (s : State) : CommandRule s.draw.2 ↔ CommandRule s := by
  simp [CommandRule]

/-- A step is its drawn move's transition, on the state without that move. -/
theorem step_transition {s t : State} (hs : CommandRule s) (h : step s = .next t) :
    Transition s.draw.2 s.draw.1 t :=
  applyMove_transition ((draw_commandRule s).2 hs) h

theorem BlockInv.commandRule {s : State} (h : BlockInv s) : CommandRule s := by
  obtain ⟨-, -, -, hc, -⟩ := h
  exact hc

end Sys2Proof.Machine
end

section
/-! PROOFS. What the operations that `Transition` names leave of the environment, of the receive datapath and of the event
registers. -/

namespace Sys2Proof.Machine

/-! ### The environment -/

@[simp] theorem pullAccept_env (i : Instr) (s : State) : (pullAccept i s).env = s.env := by
  unfold pullAccept
  cases s.rxClosed <;> simp

@[simp] theorem sendAccept_env (rid : Byte) (topic : Half) (data : List Byte) (s : State) :
    (sendAccept rid topic data s).env = s.env := by
  rcases sendAccept_cases rid topic data s with ⟨-, h⟩ | ⟨e, -, -, h⟩ | ⟨e, -, -, h⟩ <;> simp [h]

@[simp] theorem sendWait_env (s : State) : (sendWait s).env = s.env := by
  rcases sendWait_cases s with ⟨-, h⟩ | ⟨-, h⟩ <;> simp [h]

@[simp] theorem softReset_env (s : State) : (softReset s).env = s.env := by
  simp [softReset_eq]

@[simp] theorem powerOnReset_env (s : State) : (powerOnReset s).env = s.env :=
  softReset_env s

/-- A write to a register makes a soft reset (CTRL with bit 31), or writes at most the control and event registers (R247, R248). -/
theorem writeEffect_cases (off : Half) (v : Word) (s : State) :
    (off = 0 ∧ v.getLsbD 31 = true ∧ ∃ k, writeEffect off v s = softReset { s with ctrl := k }) ∨
      ∃ ctrl sticky cnt, writeEffect off v s = { s with ctrl := ctrl, sticky := sticky, cnt := cnt } := by
  unfold writeEffect
  split
  · next h =>
    cases hv : v.getLsbD 31 with
    | true => exact .inl ⟨BitVec.eq_of_toNat_eq h, rfl, _, by rw [writeCtrl, hv]; rfl⟩
    | false => exact .inr ⟨_, s.sticky, s.cnt, by rw [writeCtrl, hv]; rfl⟩
  · exact .inr ⟨s.ctrl, _, s.cnt, rfl⟩
  · exact .inr ⟨_, s.sticky, s.cnt, rfl⟩
  · exact .inr ⟨s.ctrl, s.sticky, s.cnt, rfl⟩
  · exact .inr ⟨s.ctrl, s.sticky, _, rfl⟩

@[simp] theorem writeEffect_env (off : Half) (v : Word) (s : State) : (writeEffect off v s).env = s.env := by
  rcases writeEffect_cases off v s with ⟨-, -, k, h⟩ | ⟨k, st, cnt, h⟩ <;> simp [h]

theorem take_env {s s1 : State} {b : Byte} (h : s.take = some (b, s1)) :
    s1.env = s.env ∨ ∃ q, s.env.srcQ = b :: q ∧ s1.env = { s.env with srcQ := q } := by
  rcases (take_some_iff _ _ _).1 h with ⟨r, -, rfl⟩ | ⟨-, q, hq, rfl⟩
  · exact .inl rfl
  · exact .inr ⟨q, hq, rfl⟩

/-! ### The receive step, by what it writes outside the receive datapath -/

/-- A byte is collected, dropped, or completes an envelope. -/
theorem recvByte_outcome (done : Byte → List Byte → State → State) (b : Byte) (s : State) :
    (∃ rx, recvByte done b s = { s with rx := rx }) ∨ recvByte done b s = dropByte s ∨
      ∃ e, recvByte done b s
        = done s.rx.rid e { s with rx := s.rx.toHunt, cnt := { s.cnt with env := s.cnt.env + 1 } } := by
  rcases recvByte_cases done b s with ⟨-, -, h⟩ | ⟨-, -, h⟩ | ⟨-, h⟩ | ⟨-, h⟩ | ⟨-, -, h⟩ | ⟨-, -, h⟩ | ⟨-, -, h⟩ |
    ⟨-, -, h⟩
  · exact .inl ⟨_, h⟩
  · exact .inr (.inl h)
  · exact .inl ⟨_, h⟩
  · exact .inl ⟨_, h⟩
  · exact .inl ⟨_, h⟩
  · exact .inr (.inr ⟨_, h⟩)
  · exact .inl ⟨_, h⟩
  · exact .inr (.inr ⟨_, h⟩)

/-- A completed envelope ends the pull; CNT_HUNT_DROP is not written. -/
theorem pullDone_completes (i : Instr) (rid : Byte) (e : List Byte) (s : State) :
    ∃ r rx sticky cnt, cnt.huntDrop = s.cnt.huntDrop ∧
      pullDone i rid e s = complete .rxc r { s with rx := rx, sticky := sticky, cnt := cnt } := by
  cases i with
  | rxNextFrame => exact ⟨_, _, _, s.cnt.verdict _, rfl, rfl⟩
  | _ => exact ⟨envResponse rid e, s.rx, s.sticky, s.cnt, rfl, rfl⟩

/-- What a receive step makes of `s1`, the state once its byte is taken: the pull goes on, drops the byte in HUNT (R197), or
completes. Only a dropped byte writes CNT_HUNT_DROP, and a pull that goes on writes nothing else but the receive datapath. -/
inductive Received (s1 : State) : State → Prop where
  | goesOn (rx : RxPath) : Received s1 { s1 with rx := rx }
  | drops (rx : RxPath) :
      Received s1 { s1 with rx := rx, cnt := { s1.cnt with huntDrop := s1.cnt.huntDrop + 1 } }
  | completes (r : Response) (rx : RxPath) (sticky : Sticky) (cnt : Counters) (rxClosed : Bool)
      (drop : cnt.huntDrop = s1.cnt.huntDrop ∨ cnt.huntDrop = s1.cnt.huntDrop + 1) :
      Received s1 (complete .rxc r { s1 with rx := rx, sticky := sticky, cnt := cnt, rxClosed := rxClosed })

theorem Received.env {s1 t : State} (h : Received s1 t) : t.env = s1.env := by
  cases h <;> simp

theorem dropByte_received (s : State) : Received s (dropByte s) := by
  rcases dropByte_cases s with ⟨-, h⟩ | ⟨-, h⟩ <;> rw [h]
  · exact .drops _
  · exact .completes _ _ _ _ s.rxClosed (.inr rfl)

theorem recvByte_received (i : Instr) (b : Byte) (s : State) : Received s (recvByte (pullDone i) b s) := by
  rcases recvByte_outcome (pullDone i) b s with ⟨rx, h⟩ | h | ⟨e, h⟩ <;> rw [h]
  · exact .goesOn rx
  · exact dropByte_received s
  · obtain ⟨r, rx, sticky, cnt, drop, hdone⟩ := pullDone_completes i s.rx.rid e
      { s with rx := s.rx.toHunt, cnt := { s.cnt with env := s.cnt.env + 1 } }
    rw [hdone]
    exact .completes r rx sticky cnt s.rxClosed (.inl drop)

/-- A receive step of a pull takes a byte, or none, and makes of that state what `Received` says. -/
theorem recvStep_received (i : Instr) (s : State) :
    ∃ s1, (s1 = s ∨ ∃ b, s.take = some (b, s1)) ∧ Received s1 (recvStep (pullDone i) s) := by
  rcases recvStep_cases (pullDone i) s with ⟨b, s1, hb, h⟩ | ⟨-, -, h⟩ | ⟨-, -, h⟩ <;> rw [h]
  · exact ⟨s1, .inr ⟨b, hb⟩, recvByte_received i b s1⟩
  · exact ⟨s, .inl rfl, .completes _ _ s.sticky s.cnt true (.inl rfl)⟩
  · exact ⟨s, .inl rfl, .goesOn s.rx⟩

/-- A receive step takes at most the head of the source queue and touches nothing else of the environment (R67). -/
theorem recvStep_env (i : Instr) (s : State) :
    (recvStep (pullDone i) s).env = s.env ∨
      ∃ b q, s.env.srcQ = b :: q ∧ (recvStep (pullDone i) s).env = { s.env with srcQ := q } := by
  obtain ⟨s1, hs1, h⟩ := recvStep_received i s
  rw [h.env]
  rcases hs1 with rfl | ⟨b, hb⟩
  · exact .inl rfl
  · exact (take_env hb).imp_right fun ⟨q, hq, h1⟩ => ⟨b, q, hq, h1⟩

/-! ### The receive datapath -/

@[simp] theorem sendAccept_rx (rid : Byte) (topic : Half) (data : List Byte) (s : State) :
    (sendAccept rid topic data s).rx = s.rx := by
  rcases sendAccept_cases rid topic data s with ⟨-, h⟩ | ⟨e, -, -, h⟩ | ⟨e, -, -, h⟩ <;> simp [h]

@[simp] theorem sendWait_rx (s : State) : (sendWait s).rx = s.rx := by
  rcases sendWait_cases s with ⟨-, h⟩ | ⟨-, h⟩ <;> simp [h]

end Sys2Proof.Machine
end

section
/-! PROOFS. The paths that touch the byte source and the byte sink (spec/20_memory.md R67). -/

namespace Sys2Proof.Machine

/-- The sink's log grows only by the waiting envelope, in an accepting sink step. -/
theorem Transition.snkLog {s t : State} {m : Move} (h : Transition s m t) :
    t.env.snkLog = s.env.snkLog ∨
      (m = .snkAccept ∧ s.env.snkClosed = false ∧ s.sendWaiting = true ∧ t.env.snkLog = s.env.snkLog ++ s.txEnv) := by
  cases h with
  | snkAccept waiting isOpen => exact .inr ⟨rfl, isOpen, waiting, by simp⟩
  | @receive i =>
    rcases recvStep_env i s with h | ⟨b, q, -, h⟩ <;> exact .inl (by rw [h])
  | _ => exact .inl (by simp [srcShut, snkShut])

/-- The source queue grows only by a delivery and shrinks only by the head byte that a pending pull takes. -/
theorem Transition.srcQ {s t : State} {m : Move} (h : Transition s m t) :
    t.env.srcQ = s.env.srcQ ∨
      (∃ b, m = .srcByte b ∧ s.env.srcClosed = false ∧ t.env.srcQ = s.env.srcQ ++ [b]) ∨
      (m = .chan .rxc ∧ s.pullPending = true ∧ ∃ b, s.env.srcQ = b :: t.env.srcQ) := by
  cases h with
  | srcByte isOpen => exact .inr (.inl ⟨_, rfl, isOpen, rfl⟩)
  | @receive i pending pull =>
    have hp : s.pullPending = true := by simp [State.pullPending, pending, pull]
    rcases recvStep_env i s with h | ⟨b, q, hq, h⟩ <;> rw [h]
    · exact .inl rfl
    · exact .inr (.inr ⟨rfl, hp, b, hq⟩)
  | _ => exact .inl (by simp [srcShut, snkShut])

/-- Settles O13: the two streams are read off the step's transition. -/
theorem onlyPathsTouchStreams : Obligations.OnlyPathsTouchStreams := by
  intro s t hinv hstep
  have h := step_transition hinv.commandRule hstep
  have hlog := h.snkLog
  have hq := h.srcQ
  simp only [draw_env, draw_txEnv, draw_sendWaiting, draw_pullPending, sendWaiting_iff] at hlog hq
  exact ⟨hlog, hq⟩

end Sys2Proof.Machine
end

section
/-! PROOFS. Who writes the receive datapath and what CTLC sees of it (spec/20_memory.md R78). -/

namespace Sys2Proof.Machine

/-- The receive datapath is written only by RXC, by power-on reset, or by a write to CTRL with bit 31 set. -/
theorem Transition.rx {s t : State} {m : Move} (h : Transition s m t) :
    t.rx = s.rx ∨ m = .chan .rxc ∨ m = .powerOn ∨
      (m = .chan .ctlc ∧ ∃ x v, s.ctlc.placed = some x ∧ decode .ctlc x = .ok (.csrWrite 0 v) ∧ v.getLsbD 31 = true) := by
  cases h with
  | powerOn => exact .inr (.inr (.inl rfl))
  | pullAccept => exact .inr (.inl rfl)
  | receive => exact .inr (.inl rfl)
  | @csrWrite x off v idle placed decoded good =>
    rcases writeEffect_cases off v (accept .ctlc (.csrWrite off v) (unplace .ctlc s)) with
      ⟨rfl, hv, -⟩ | ⟨k, st, cnt, h⟩
    · exact .inr (.inr (.inr ⟨rfl, x, v, placed, decoded, hv⟩))
    · exact .inl (by simp [h])
  | _ => exact .inl (by simp [srcShut, snkShut])

/-- What CTLC reads of the receive datapath is `rx_st`, in STATUS, and the replay queue's length, in REPLAY_LEVEL. -/
theorem csrValue_of_rx (s : State) (rx : RxPath) (off : Half) (hst : rx.st = s.rx.st)
    (hlen : rx.replay.length = s.rx.replay.length) : csrValue off { s with rx := rx } = csrValue off s := by
  have hstatus : statusWord { s with rx := rx } = statusWord s := by
    unfold statusWord
    rw [hst]
    rfl
  unfold csrValue
  rw [hstatus, hlen]
  rfl

/-- Settles O38: every other step's transition leaves the datapath. -/
theorem receivePathOwnership : Obligations.ReceivePathOwnership := by
  refine ⟨fun s t hinv hstep hrxc hreset => ?_, csrValue_of_rx⟩
  have h := (step_transition hinv.commandRule hstep).rx
  simp only [draw_rx, draw_ctlc] at h
  rcases h with h | h | h | h
  · exact h
  · exact absurd h hrxc
  · exact absurd (.inl h) hreset
  · exact absurd (.inr h) hreset

end Sys2Proof.Machine
end

section
/-! PROOFS. When a counter or a sticky bit changes, and who sees it (spec/20_memory.md R73). -/

namespace Sys2Proof.Machine

/-- `t` has the sticky bits and the counters of `s`, CNT_HUNT_DROP aside. -/
def SameEvents (s t : State) : Prop :=
  t.sticky = s.sticky ∧ { t.cnt with huntDrop := 0 } = { s.cnt with huntDrop := 0 }

/-- Between `s` and `t` channel `c` returns one response. -/
def Returns (c : Channel) (s t : State) : Prop := ∃ r, (t.chan c).resp = (s.chan c).resp ++ [r]

/-- Completing returns a response, whatever was done before that left the channel's responses. -/
theorem returns_complete {c : Channel} {s s1 : State} (r : Response) (h : (s1.chan c).resp = (s.chan c).resp) :
    Returns c s (complete c r s1) :=
  ⟨r, by simp [h]⟩

theorem returns_raise {c : Channel} {s s1 : State} (e : Status) (h : (s1.chan c).resp = (s.chan c).resp) :
    Returns c s (raise c e s1) :=
  returns_complete _ h

theorem sameEvents_of_eq {s t : State} (hst : t.sticky = s.sticky) (hcnt : t.cnt = s.cnt) : SameEvents s t :=
  ⟨hst, by rw [hcnt]⟩

/-! ### The operations -/

@[simp] theorem pullAccept_sticky (i : Instr) (s : State) : (pullAccept i s).sticky = s.sticky := by
  unfold pullAccept
  cases s.rxClosed <;> simp

@[simp] theorem pullAccept_cnt (i : Instr) (s : State) : (pullAccept i s).cnt = s.cnt := by
  unfold pullAccept
  cases s.rxClosed <;> simp

@[simp] theorem sendWait_sticky (s : State) : (sendWait s).sticky = s.sticky := by
  rcases sendWait_cases s with ⟨-, h⟩ | ⟨-, h⟩ <;> simp [h]

@[simp] theorem sendWait_cnt (s : State) : (sendWait s).cnt = s.cnt := by
  rcases sendWait_cases s with ⟨-, h⟩ | ⟨-, h⟩ <;> simp [h]

@[simp] theorem sendAccept_huntDrop (rid : Byte) (topic : Half) (data : List Byte) (s : State) :
    (sendAccept rid topic data s).cnt.huntDrop = s.cnt.huntDrop := by
  rcases sendAccept_cases rid topic data s with ⟨-, h⟩ | ⟨e, -, -, h⟩ | ⟨e, -, -, h⟩ <;> simp [h]

/-- A TX_SEND's acceptance changes a counter only where it answers ValueTooLarge (R149). -/
theorem sendAccept_events (rid : Byte) (topic : Half) (data : List Byte) (s : State) :
    SameEvents s (sendAccept rid topic data s) ∨ Returns .txc s (sendAccept rid topic data s) := by
  rcases sendAccept_cases rid topic data s with ⟨-, h⟩ | ⟨e, -, -, h⟩ | ⟨e, -, -, h⟩ <;> rw [h]
  · exact .inr (returns_raise _ rfl)
  · exact .inr (returns_raise _ rfl)
  · exact .inl ⟨rfl, rfl⟩

/-- A CSR write leaves the responses of CTLC, a soft reset included. -/
theorem writeEffect_ctlc_resp (off : Half) (v : Word) (s : State) : (writeEffect off v s).ctlc.resp = s.ctlc.resp := by
  rcases writeEffect_cases off v s with ⟨-, -, k, h⟩ | ⟨k, st, cnt, h⟩ <;> simp [h, softReset_eq]

theorem csrWrite_returns (off : Half) (v : Word) (s : State) :
    Returns .ctlc s (complete .ctlc Response.done (writeEffect off v (accept .ctlc (.csrWrite off v) (unplace .ctlc s)))) :=
  returns_complete _ (writeEffect_ctlc_resp off v _)

/-- Taking a byte, or none, leaves the event registers and RXC. -/
theorem take_leaves_events {s s1 : State} (h : s1 = s ∨ ∃ b, s.take = some (b, s1)) :
    s1.sticky = s.sticky ∧ s1.cnt = s.cnt ∧ s1.rxc = s.rxc := by
  rcases h with rfl | ⟨b, hb⟩
  · exact ⟨rfl, rfl, rfl⟩
  · rw [take_rest hb]
    exact ⟨rfl, rfl, rfl⟩

theorem Received.events {s1 t : State} (h : Received s1 t) : SameEvents s1 t ∨ Returns .rxc s1 t := by
  cases h with
  | goesOn rx => exact .inl ⟨rfl, rfl⟩
  | drops rx => exact .inl ⟨rfl, rfl⟩
  | completes r => exact .inr (returns_complete r rfl)

theorem Received.huntDrop {s1 t : State} (h : Received s1 t) :
    t.cnt.huntDrop = s1.cnt.huntDrop ∨ t.cnt.huntDrop = s1.cnt.huntDrop + 1 := by
  cases h with
  | goesOn rx => exact .inl rfl
  | drops rx => exact .inr rfl
  | completes r rx sticky cnt rxClosed drop => simpa using drop

/-- A receive step that changes a sticky bit, or a counter other than CNT_HUNT_DROP, completes its pull. -/
theorem recvStep_events (i : Instr) (s : State) :
    SameEvents s (recvStep (pullDone i) s) ∨ Returns .rxc s (recvStep (pullDone i) s) := by
  obtain ⟨s1, hs1, h⟩ := recvStep_received i s
  obtain ⟨hsticky, hcnt, hrxc⟩ := take_leaves_events hs1
  simpa [SameEvents, Returns, hsticky, hcnt, hrxc] using h.events

/-- A receive step adds at most 1 to CNT_HUNT_DROP. -/
theorem recvStep_huntDrop (i : Instr) (s : State) :
    (recvStep (pullDone i) s).cnt.huntDrop = s.cnt.huntDrop ∨
      (recvStep (pullDone i) s).cnt.huntDrop = s.cnt.huntDrop + 1 := by
  obtain ⟨s1, hs1, h⟩ := recvStep_received i s
  obtain ⟨-, hcnt, -⟩ := take_leaves_events hs1
  rw [← hcnt]
  exact h.huntDrop

/-! ### The step -/

/-- Sticky bits and counters other than CNT_HUNT_DROP change only in a step that returns a response, or in power-on reset. -/
theorem Transition.events {s t : State} {m : Move} (h : Transition s m t) :
    SameEvents s t ∨ (∃ c, Returns c s t) ∨ m = .powerOn := by
  cases h with
  | powerOn => exact .inr (.inr rfl)
  | snkAccept => exact .inr (.inl ⟨.txc, returns_complete _ rfl⟩)
  | csrWrite => exact .inr (.inl ⟨.ctlc, csrWrite_returns _ _ s⟩)
  | @receive i => exact (recvStep_events i s).imp_right fun h => .inl ⟨.rxc, h⟩
  | @sendAccept x rid topic data =>
    exact (sendAccept_events rid topic data (accept .txc (.txSend rid topic data) (unplace .txc s))).imp_right
      fun h => .inl ⟨.txc, h⟩
  | _ => exact .inl (sameEvents_of_eq (by simp [srcShut, snkShut]) (by simp [srcShut, snkShut]))

/-- CNT_HUNT_DROP changes only by 1 in a receive step of a pending pull, in a CSR_WRITE, or in power-on reset. -/
theorem Transition.huntDrop {s t : State} {m : Move} (h : Transition s m t) :
    t.cnt.huntDrop = s.cnt.huntDrop ∨
      (m = .chan .rxc ∧ s.pullPending = true ∧ t.cnt.huntDrop = s.cnt.huntDrop + 1) ∨ Returns .ctlc s t ∨
      m = .powerOn := by
  cases h with
  | powerOn => exact .inr (.inr (.inr rfl))
  | csrWrite => exact .inr (.inr (.inl (csrWrite_returns _ _ s)))
  | @receive i pending pull =>
    have hp : s.pullPending = true := by simp [State.pullPending, pending, pull]
    exact (recvStep_huntDrop i s).imp_right fun h => .inl ⟨rfl, hp, h⟩
  | _ => exact .inl (by simp [srcShut, snkShut])

/-- Settles O50: the step's transition keeps the event registers, returns a response, or is the dropping step. -/
theorem counterVisibility : Obligations.CounterVisibility := by
  intro s t hinv hstep hpower
  have h := step_transition hinv.commandRule hstep
  have hevents := h.events
  have hdrop := h.huntDrop
  simp only [SameEvents, Returns, draw_sticky, draw_cnt, draw_chan, draw_pullPending, hpower, or_false] at hevents hdrop
  constructor
  · intro hchange
    rcases hevents with ⟨hst, hcnt⟩ | hret
    · exact absurd hchange (not_or.2 ⟨not_not.2 hst, not_not.2 hcnt⟩)
    · exact hret
  · intro hchange
    exact hdrop.resolve_left hchange

end Sys2Proof.Machine
end

section
/-! PROOFS. The checksum (spec/40_checksum.md R120, R121, R123, R124). A checksum determines the sum of its bytes mod 256 and nothing
more (`checksum_eq_iff`); what the sum ignores it ignores, and what changes the sum mod 256 it detects. -/

namespace Sys2Proof.Machine

/-! ### The sum -/

theorem sumBytes_perm {a b : List Byte} (h : a.Perm b) : sumBytes a = sumBytes b :=
  (h.map BitVec.toNat).sum_eq

/-- A byte put in the place of another counts in the sum instead of it. -/
theorem sumBytes_set {bs : List Byte} {k : Nat} (b : Byte) (hk : k < bs.length) :
    sumBytes (bs.set k b) + (byteAt bs k).toNat = sumBytes bs + b.toNat := by
  induction bs generalizing k with
  | nil => simp at hk
  | cons c cs ih =>
    cases k with
    | zero =>
      simp only [byteAt, List.set_cons_zero, sumBytes_cons, List.getD_cons_zero]
      omega
    | succ k =>
      have := ih (Nat.lt_of_succ_lt_succ hk)
      simp only [byteAt, List.set_cons_succ, sumBytes_cons, List.getD_cons_succ] at this ⊢
      omega

/-- An 8-bit accumulator fed the bytes adds their sum to what it held. -/
theorem foldl_add_eq (bs : List Byte) (acc : Byte) :
    bs.foldl (fun acc b => acc + b) acc = acc + BitVec.ofNat 8 (sumBytes bs) := by
  induction bs generalizing acc with
  | nil => simp
  | cons b bs ih => simp [ih, BitVec.ofNat_add, BitVec.add_assoc]

/-- The byte-serial accumulator (R121) ends at the sum's low byte. -/
theorem foldl_add_zero (bs : List Byte) : bs.foldl (fun acc b => acc + b) 0 = BitVec.ofNat 8 (sumBytes bs) :=
  (foldl_add_eq bs 0).trans (BitVec.zero_add _)

/-! ### The checksum -/

theorem checksum_eq_not (b : List Byte) : checksum b = ~~~BitVec.ofNat 8 (sumBytes b) := by
  apply BitVec.eq_of_toNat_eq
  rw [checksum_toNat, BitVec.toNat_not, BitVec.toNat_ofNat]

/-- The validator's arithmetic form (R123). -/
theorem checksum_eq_iff_sum_add (b : List Byte) (c : Byte) : checksum b = c ↔ (sumBytes b + c.toNat) % 256 = 255 := by
  have := c.isLt
  rw [← BitVec.toNat_inj, checksum_toNat]
  omega

theorem checksum_eq_iff {a b : List Byte} : checksum a = checksum b ↔ sumBytes a % 256 = sumBytes b % 256 := by
  rw [← BitVec.toNat_inj, checksum_toNat, checksum_toNat]
  omega

theorem checksum_perm {a b : List Byte} (h : a.Perm b) : checksum a = checksum b :=
  checksum_eq_iff.2 (by rw [sumBytes_perm h])

/-- Two different bytes differ by less than 256, so the sum mod 256 tells them apart. -/
theorem checksum_set_ne {bs : List Byte} {k : Nat} {b : Byte} (hk : k < bs.length) (hb : byteAt bs k ≠ b) :
    checksum (bs.set k b) ≠ checksum bs := by
  have hsum := sumBytes_set b hk
  have hne : (byteAt bs k).toNat ≠ b.toNat := BitVec.toNat_inj.not.2 hb
  have := (byteAt bs k).isLt
  have := b.isLt
  rw [ne_eq, checksum_eq_iff]
  omega

theorem csumOk_iff (b : List Byte) (c : Byte) : csumOk b c = true ↔ checksum b = c := by
  simp [csumOk]

/-! ### The obligations -/

/-- Settles O1: each form is the complement of the sum's low byte. -/
theorem checksumForms : Obligations.ChecksumForms := by
  intro B
  refine ⟨checksum_toNat B, ?_, fun B' hperm => ?_⟩
  · have hlow : BitVec.ofNat 8 (sumBytes B % 256) = BitVec.ofNat 8 (sumBytes B) := BitVec.eq_of_toNat_eq (by simp)
    calc checksum B = ~~~BitVec.ofNat 8 (sumBytes B) := checksum_eq_not B
      _ = BitVec.ofNat 8 (sumBytes B % 256) ^^^ BitVec.allOnes 8 := by rw [BitVec.xor_allOnes, hlow]
  · calc checksum B = checksum B' := (checksum_perm hperm).symm
      _ = ~~~BitVec.ofNat 8 (sumBytes B') := checksum_eq_not B'
      _ = BitVec.allOnes 8 - BitVec.ofNat 8 (sumBytes B') := (BitVec.allOnes_sub_eq_not _).symm
      _ = 0xFF - B'.foldl (fun acc b => acc + b) 0 := by rw [foldl_add_zero]; rfl

/-- Settles O2: `csum_ok` compares the checksum, and a byte is the checksum exactly when it completes the sum to 255 mod 256. -/
theorem checksumValidator : Obligations.ChecksumValidator := fun B c =>
  ⟨csumOk_iff B c, (csumOk_iff B c).trans (checksum_eq_iff_sum_add B c)⟩

/-- Settles O3: the properties of the sum, read through `checksum_eq_iff`. -/
theorem checksumDetection : Obligations.ChecksumDetection := by
  refine ⟨fun B => (checksum_eq_iff_sum_add B _).1 rfl, rfl, fun A B => ?_, fun _ _ => checksum_perm,
    fun _ _ _ => checksum_set_ne, fun _ _ => checksum_eq_iff.2, fun B c hc => ?_⟩
  · rw [checksum_toNat, sumBytes_append]
    rfl
  · exact Bool.eq_false_iff.2 fun hok => hc ((csumOk_iff B c).1 hok).symm

end Sys2Proof.Machine
end

section
/-! PROOFS. The frame builder (spec/41_frame_builder.md R140 to R142). The inner frame and the envelope are written once as lists of
bytes (`innerFrame_eq`, `envelope_eq`); each field of a built envelope is then read off the list. -/

namespace Sys2Proof.Machine

/-! ### The inner frame -/

/-- A 16-bit field's two bytes and their checksum sum to 255 mod 256. -/
theorem halfBytes_sum_mod (v : Half) : ((lo8 v).toNat + (hi8 v).toNat + (checksum (halfBytes v)).toNat) % 256 = 255 := by
  simpa [halfBytes] using (checksum_eq_iff_sum_add (halfBytes v) (checksum (halfBytes v))).1 rfl

/-- The inner frame as one list: seven header bytes, the payload, checksum_2 (R81). -/
theorem innerFrame_eq (topic : Half) (P : List Byte) :
    innerFrame topic P =
      0xFF :: 0xFE :: lo8 (BitVec.ofNat 16 P.length) :: hi8 (BitVec.ofNat 16 P.length)
        :: checksum (halfBytes (BitVec.ofNat 16 P.length)) :: lo8 topic :: hi8 topic
        :: (P ++ [checksum (halfBytes topic ++ P)]) := rfl

/-- An inner frame is 8 bytes longer than its payload (R81). -/
@[simp] theorem innerFrame_length (topic : Half) (P : List Byte) : (innerFrame topic P).length = P.length + 8 := by
  simp [innerFrame_eq]

/-- The field `msg_length` holds every payload length below 2^16. -/
theorem msgLength_innerFrame (topic : Half) {P : List Byte} (h : P.length < 2 ^ 16) :
    msgLength (innerFrame topic P) = P.length := by
  rw [innerFrame_eq]
  simpa [msgLength, byteAt] using h

theorem innerFrame_topic (topic : Half) (P : List Byte) :
    le16 (byteAt (innerFrame topic P) 5) (byteAt (innerFrame topic P) 6) = topic :=
  le16_lo8_hi8 topic

theorem innerFrame_payload (topic : Half) (P : List Byte) : slice (innerFrame topic P) 7 (7 + P.length) = P := by
  simp [innerFrame_eq, slice, Nat.add_comm 7]

/-- The bytes that checksum_2 covers: topic and payload (R166). -/
theorem innerFrame_slice_covered (topic : Half) (P : List Byte) :
    slice (innerFrame topic P) 5 (7 + P.length) = halfBytes topic ++ P := by
  simp [innerFrame_eq, slice, Nat.add_comm 7, halfBytes]

theorem innerFrame_checksum1 (topic : Half) (P : List Byte) :
    byteAt (innerFrame topic P) 4 = checksum (slice (innerFrame topic P) 2 4) := rfl

theorem innerFrame_checksum2 (topic : Half) (P : List Byte) :
    byteAt (innerFrame topic P) (7 + P.length) = checksum (slice (innerFrame topic P) 5 (7 + P.length)) := by
  rw [innerFrame_slice_covered]
  simp [innerFrame_eq, byteAt, Nat.add_comm 7]

/-- From the topic on, the bytes of an inner frame with their checksum_2 sum to 255 mod 256 (R142). -/
theorem innerFrame_sum_mod (topic : Half) (P : List Byte) : sumBytes ((innerFrame topic P).drop 5) % 256 = 255 := by
  have hdrop : (innerFrame topic P).drop 5 = halfBytes topic ++ P ++ [checksum (halfBytes topic ++ P)] := rfl
  rw [hdrop, sumBytes_append, sumBytes_cons, sumBytes_nil]
  exact (checksum_eq_iff_sum_add _ _).1 rfl

/-! ### The envelope -/

/-- The envelope as one list: four header bytes and the inner frame (R80). -/
theorem envelope_eq (topic : Half) (rid : Byte) (P : List Byte) :
    envelope topic rid P =
      0xFF :: rid :: lo8 (BitVec.ofNat 16 (P.length + 8)) :: hi8 (BitVec.ofNat 16 (P.length + 8)) :: innerFrame topic P := rfl

/-- An envelope is 12 bytes longer than its payload (R142). -/
@[simp] theorem envelope_length (topic : Half) (rid : Byte) (P : List Byte) :
    (envelope topic rid P).length = P.length + 12 := by
  simp [envelope_eq]

/-- The inner frame of an envelope starts at its byte 4 (R80). -/
@[simp] theorem envelope_drop (topic : Half) (rid : Byte) (P : List Byte) :
    (envelope topic rid P).drop 4 = innerFrame topic P := rfl

/-- The envelope's field `length` holds the inner frame's length where that is below 2^16. -/
theorem envelope_lengthField (topic : Half) (rid : Byte) {P : List Byte} (h : P.length + 8 < 2 ^ 16) :
    (le16 (byteAt (envelope topic rid P) 2) (byteAt (envelope topic rid P) 3)).toNat = P.length + 8 := by
  rw [envelope_eq]
  simpa [byteAt] using h

/-! ### build -/

/-- `build` frames exactly the payloads of at most MAX_PAYLOAD bytes (R140). -/
theorem build_eq_none_iff (topic : Half) (rid : Byte) (P : List Byte) : build topic rid P = none ↔ 65527 < P.length := by
  simp [build, Config.maxPayload]

/-- What `build` returns is the envelope of R141. -/
theorem build_eq_some_iff (topic : Half) (rid : Byte) (P E : List Byte) :
    build topic rid P = some E ↔ P.length ≤ 65527 ∧ envelope topic rid P = E := by
  simp [build, Config.maxPayload]

/-! ### The obligations -/

/-- Settles O5: the bound of R140 keeps both lengths in 16 bits, and the envelope is `envelope_eq`. -/
theorem envelopeComposition : Obligations.EnvelopeComposition := by
  intro topic rid P
  refine ⟨(build_eq_none_iff topic rid P).2, fun h => ?_⟩
  have hm : P.length < 2 ^ 16 := by omega
  have ht : P.length + 8 < 2 ^ 16 := by omega
  exact ⟨BitVec.ofNat 16 P.length, BitVec.ofNat 16 (P.length + 8), Nat.mod_eq_of_lt hm, Nat.mod_eq_of_lt ht,
    (build_eq_some_iff topic rid P _).2 ⟨h, rfl⟩⟩

/-- Settles O6: a built envelope is a header and an inner frame, and each field is that frame's. -/
theorem envelopeProperties : Obligations.EnvelopeProperties := by
  intro topic rid P E hbuild
  obtain ⟨h, rfl⟩ := (build_eq_some_iff topic rid P E).1 hbuild
  refine ⟨envelope_length topic rid P, rfl, rfl, envelope_lengthField topic rid (by omega), ?_,
    halfBytes_sum_mod (BitVec.ofNat 16 P.length), innerFrame_sum_mod topic P⟩
  rintro F rfl
  rw [envelope_drop]
  exact ⟨rfl, rfl, msgLength_innerFrame topic (by omega), innerFrame_checksum1 topic P, innerFrame_topic topic P,
    innerFrame_payload topic P, innerFrame_checksum2 topic P⟩

end Sys2Proof.Machine
end

section
/-! PROOFS. The transmit path (spec/41_frame_builder.md R146, R147): what ends the wait of a TX_SEND. -/

namespace Sys2Proof.Machine

/-! ### The sink's acceptance -/

/-- R147: the sink takes the waiting envelope whole and TX_SEND completes. -/
theorem sinkAccept_waiting {s : State} (waiting : s.sendWaiting = true) (isOpen : s.env.snkClosed = false) :
    sinkAccept s = complete .txc Response.done
      { s with
        env := { s.env with snkLog := s.env.snkLog ++ s.txEnv }
        txEnv := []
        cnt := { s.cnt with txOk := s.cnt.txOk + 1 } } := by
  simp [sinkAccept, waiting, isOpen]

/-- R41: there is no acceptance while no TX_SEND waits or the sink is closed. -/
theorem sinkAccept_disabled {s : State} (h : s.sendWaiting = false ∨ s.env.snkClosed = true) : sinkAccept s = s := by
  rcases h with h | h <;> simp [sinkAccept, h]

/-- Settles O10: the accepting step of R147, and the move that is not enabled. -/
theorem sinkAcceptsWhole : Obligations.SinkAcceptsWhole := by
  intro s rid topic data
  constructor
  · intro hcmd isOpen
    have waiting : s.sendWaiting = true := (sendWaiting_iff s).2 ⟨rid, topic, data, hcmd⟩
    exact congrArg Host.Outcome.next (sinkAccept_waiting waiting isOpen)
  · intro h
    have disabled : s.sendWaiting = false ∨ s.env.snkClosed = true :=
      h.imp_left fun idle => by simp [State.sendWaiting, idle]
    exact congrArg Host.Outcome.next (sinkAccept_disabled disabled)

/-! ### What leaves TXC and its envelope -/

/-- `t` has TXC and the waiting envelope of `s`. -/
def SameSend (s t : State) : Prop := t.txc = s.txc ∧ t.txEnv = s.txEnv

theorem SameSend.trans {s s1 t : State} : SameSend s s1 → SameSend s1 t → SameSend s t
  | ⟨htxc, henv⟩, ⟨htxc', henv'⟩ => ⟨htxc'.trans htxc, henv'.trans henv⟩

/-- Writing another channel leaves TXC; accepting, completing and unplacing a command do no more. -/
theorem setChan_sameSend (s : State) {c : Channel} (x : Chan) (h : c ≠ .txc) : SameSend s (s.setChan c x) :=
  ⟨chan_setChan_ne s x h.symm, setChan_txEnv s c x⟩

theorem unplace_sameSend (s : State) {c : Channel} (h : c ≠ .txc) : SameSend s (unplace c s) :=
  setChan_sameSend s _ h

theorem accept_sameSend (i : Instr) (s : State) {c : Channel} (h : c ≠ .txc) : SameSend s (accept c i s) :=
  setChan_sameSend s _ h

theorem complete_sameSend (r : Response) (s : State) {c : Channel} (h : c ≠ .txc) : SameSend s (complete c r s) :=
  setChan_sameSend s _ h

theorem pullAccept_sameSend (i : Instr) (s : State) : SameSend s (pullAccept i s) := by
  unfold pullAccept
  cases s.rxClosed <;> exact ⟨rfl, rfl⟩

theorem take_sameSend {s s1 : State} {b : Byte} (h : s.take = some (b, s1)) : SameSend s s1 := by
  rw [take_rest h]
  exact ⟨rfl, rfl⟩

theorem Received.sameSend {s1 t : State} (h : Received s1 t) : SameSend s1 t := by
  cases h <;> exact ⟨rfl, rfl⟩

theorem recvStep_sameSend (i : Instr) (s : State) : SameSend s (recvStep (pullDone i) s) := by
  obtain ⟨s1, rfl | ⟨b, hb⟩, h⟩ := recvStep_received i s
  · exact h.sameSend
  · exact (take_sameSend hb).trans h.sameSend

/-! ### The step -/

/-- While TXC is busy, only an accepting step of an open sink, a TXC step that sees the sink closed, and the two resets touch TXC
or its envelope. -/
theorem Transition.send {s t : State} {m : Move} (h : Transition s m t) (hbusy : s.txc.cmd ≠ none) :
    SameSend s t ∨ (m = .snkAccept ∧ s.env.snkClosed = false) ∨ (m = .chan .txc ∧ s.env.snkClosed = true) ∨
      m = .powerOn ∨
      (m = .chan .ctlc ∧ ∃ x v, s.ctlc.placed = some x ∧ decode .ctlc x = .ok (.csrWrite 0 v) ∧ v.getLsbD 31 = true) := by
  have notTxc {c : Channel} (idle : (s.chan c).cmd = none) : c ≠ .txc := by
    rintro rfl
    exact hbusy idle
  cases h with
  | powerOn => exact .inr (.inr (.inr (.inl rfl)))
  | snkAccept waiting isOpen => exact .inr (.inl ⟨rfl, isOpen⟩)
  | sendAccept idle => exact absurd idle hbusy
  | sendWait =>
    rcases sendWait_cases s with ⟨closed, -⟩ | ⟨-, he⟩
    · exact .inr (.inr (.inl ⟨rfl, closed⟩))
    · exact .inl (by rw [he]; exact ⟨rfl, rfl⟩)
  | @csrWrite x off v idle placed decoded =>
    rcases writeEffect_cases off v (accept .ctlc (.csrWrite off v) (unplace .ctlc s)) with
      ⟨rfl, hv, -⟩ | ⟨k, st, cnt, he⟩
    · exact .inr (.inr (.inr (.inr ⟨rfl, x, v, placed, decoded, hv⟩)))
    · exact .inl (by rw [he]; exact ⟨rfl, rfl⟩)
  | refuse idle => exact .inl ((unplace_sameSend s (notTxc idle)).trans (complete_sameSend _ _ (notTxc idle)))
  | answer idle =>
    have hc := notTxc idle
    exact .inl (((unplace_sameSend s hc).trans (accept_sameSend _ _ hc)).trans (complete_sameSend _ _ hc))
  | pullAccept => exact .inl ((unplace_sameSend s (by decide)).trans (pullAccept_sameSend _ _))
  | receive => exact .inl (recvStep_sameSend _ s)
  | place idle => exact .inl (setChan_sameSend s _ (notTxc idle))
  | stutter | refuseOffset | timeout | srcByte | srcClose | snkClose => exact .inl ⟨rfl, rfl⟩

/-- In every state of the invariant the envelope of a waiting TX_SEND is in `tx_env` (R145). -/
theorem CommandRule.build_eq {s : State} {rid : Byte} {topic : Half} {data : List Byte} (hs : CommandRule s)
    (waiting : s.txc.cmd = some (.txSend rid topic data)) : build topic rid data = some s.txEnv := by
  obtain ⟨-, -, htx, -⟩ := hs
  simpa [waiting, sendEnvelope] using htx

/-- Settles O12: the step's transition leaves a busy TXC, or is one of the steps that R146 names or a reset. -/
theorem sendHoldLifted : Obligations.SendHoldLifted := by
  intro s t rid topic data hinv waiting hstep
  refine ⟨hinv.commandRule.build_eq waiting, ?_⟩
  have h := (step_transition hinv.commandRule hstep).send (by simp [waiting])
  simp only [SameSend, draw_txc, draw_txEnv, draw_env, draw_ctlc] at h
  exact h

end Sys2Proof.Machine
end

section
/-! PROOFS. The extractor (spec/42_frame_extractor.md R160 to R170): the exits of `extract`, said once with their guards, and the
verdict on a frame that passes every test, as the builder's do. -/

namespace Sys2Proof.Machine

/-! ### The three tests -/

theorem badMarkers_iff (f : List Byte) : badMarkers f = true ↔ byteAt f 0 ≠ 0xFF ∨ byteAt f 1 ≠ 0xFE := by
  simp [badMarkers, Config.sync, Config.version]

theorem badMarkers_eq_false_iff (f : List Byte) : badMarkers f = false ↔ byteAt f 0 = 0xFF ∧ byteAt f 1 = 0xFE := by
  simp [badMarkers, Config.sync, Config.version]

theorem cs1Bad_iff (f : List Byte) : cs1Bad f = true ↔ checksum (slice f 2 4) ≠ byteAt f 4 := by
  simp [cs1Bad, csumOk]

theorem cs2Bad_iff (f : List Byte) :
    cs2Bad f = true ↔ checksum (slice f 5 (7 + msgLength f)) ≠ byteAt f (7 + msgLength f) := by
  simp [cs2Bad, csumOk]

/-! ### The exits of extract -/

@[simp] theorem Verdict.fail_status (st : Status) (cs1 cs2 : Bool) : (Verdict.fail st cs1 cs2).status = st := rfl
@[simp] theorem Verdict.fail_cs1Bad (st : Status) (cs1 cs2 : Bool) : (Verdict.fail st cs1 cs2).cs1Bad = cs1 := rfl
@[simp] theorem Verdict.fail_cs2Bad (st : Status) (cs1 cs2 : Bool) : (Verdict.fail st cs1 cs2).cs2Bad = cs2 := rfl

/-- R160 with R161: the chain of tests ends in one of six exits, each with the tests it passed and the flags it leaves. -/
theorem extract_cases (f : List Byte) (strict : Bool) :
    (f.length < 8 ∧ extract f strict = .fail .badLength false false) ∨
    (8 ≤ f.length ∧ badMarkers f = true ∧ extract f strict = .fail .badSyncOrVersion false false) ∨
    (8 ≤ f.length ∧ badMarkers f = false ∧ cs1Bad f = true ∧ strict = true ∧
      extract f strict = .fail .checksumMismatch true false) ∨
    (8 ≤ f.length ∧ badMarkers f = false ∧ (strict = true → cs1Bad f = false) ∧ f.length ≠ msgLength f + 8 ∧
      extract f strict = .fail .badLength (cs1Bad f) false) ∨
    (f.length = msgLength f + 8 ∧ badMarkers f = false ∧ cs1Bad f = false ∧ cs2Bad f = true ∧ strict = true ∧
      extract f strict = .fail .checksumMismatch false true) ∨
    (f.length = msgLength f + 8 ∧ badMarkers f = false ∧ (strict = true → cs1Bad f = false ∧ cs2Bad f = false) ∧
      extract f strict =
        ⟨.ok, cs1Bad f, cs2Bad f, le16 (byteAt f 5) (byteAt f 6), slice f 7 (7 + msgLength f)⟩) := by
  unfold extract Config.innerOverhead
  split_ifs with short markers first length second
  · exact .inl ⟨short, rfl⟩
  · exact .inr (.inl ⟨not_lt.1 short, markers, rfl⟩)
  · obtain ⟨bad, hs⟩ := Bool.and_eq_true_iff.1 first
    exact .inr (.inr (.inl ⟨not_lt.1 short, by simpa using markers, bad, hs, rfl⟩))
  · have clear : strict = true → cs1Bad f = false := by
      rintro rfl
      simpa using first
    exact .inr (.inr (.inr (.inl ⟨not_lt.1 short, by simpa using markers, clear, length, rfl⟩)))
  · obtain ⟨bad, hs⟩ := Bool.and_eq_true_iff.1 second
    have clear : cs1Bad f = false := by simpa [hs] using first
    exact .inr (.inr (.inr (.inr (.inl ⟨not_not.1 length, by simpa using markers, clear, bad, hs, by rw [clear]⟩))))
  · have clear : strict = true → cs1Bad f = false ∧ cs2Bad f = false := by
      rintro rfl
      exact ⟨by simpa using first, by simpa using second⟩
    exact .inr (.inr (.inr (.inr (.inr ⟨not_not.1 length, by simpa using markers, clear, rfl⟩))))

theorem extract_of_badMarkers {f : List Byte} (long : 8 ≤ f.length) (bad : badMarkers f = true) (strict : Bool) :
    extract f strict = .fail .badSyncOrVersion false false := by
  simp [extract, Config.innerOverhead, long.not_gt, bad]

theorem extract_strict_of_cs1Bad {f : List Byte} (long : 8 ≤ f.length) (markers : badMarkers f = false)
    (bad : cs1Bad f = true) : extract f true = .fail .checksumMismatch true false := by
  simp [extract, Config.innerOverhead, long.not_gt, markers, bad]

theorem extract_strict_of_cs2Bad {f : List Byte} (length : f.length = msgLength f + 8) (markers : badMarkers f = false)
    (cs1 : cs1Bad f = false) (bad : cs2Bad f = true) : extract f true = .fail .checksumMismatch false true := by
  simp [extract, Config.innerOverhead, length, markers, cs1, bad]

/-- Strict mode stops at the first checksum that fails, so it leaves at most one flag (R161). -/
theorem extract_strict_flags (f : List Byte) : ¬((extract f true).cs1Bad = true ∧ (extract f true).cs2Bad = true) := by
  rcases extract_cases f true with ⟨-, h⟩ | ⟨-, -, h⟩ | ⟨-, -, -, -, h⟩ | ⟨-, -, -, -, h⟩ | ⟨-, -, -, -, -, h⟩ |
    ⟨-, -, clear, h⟩
  case inr.inr.inr.inr.inr => simp [h, clear rfl]
  all_goals simp [h]

/-- An OK verdict comes from the last exit (R167). -/
theorem extract_ok {f : List Byte} {strict : Bool} (hok : (extract f strict).status = .ok) :
    f.length = msgLength f + 8 ∧ (strict = true → cs1Bad f = false ∧ cs2Bad f = false) ∧
      extract f strict =
        ⟨.ok, cs1Bad f, cs2Bad f, le16 (byteAt f 5) (byteAt f 6), slice f 7 (7 + msgLength f)⟩ := by
  rcases extract_cases f strict with ⟨-, h⟩ | ⟨-, -, h⟩ | ⟨-, -, -, -, h⟩ | ⟨-, -, -, -, h⟩ | ⟨-, -, -, -, -, h⟩ |
    ⟨length, -, clear, h⟩
  case inr.inr.inr.inr.inr => exact ⟨length, clear, h⟩
  all_goals simp [h] at hok

/-! ### The obligations on every frame -/

/-- Settles O14: the rule's chain is `extract` with its tests read as propositions; the frame that sets both flags in legacy mode
has 0 in the place of both checksums. -/
theorem extractInOrder : Obligations.ExtractInOrder := by
  refine ⟨?_, extract_strict_flags, [0xFF, 0xFE, 0, 0, 0, 0, 0, 0], by decide, by decide⟩
  rintro F strict m rfl cs1 cs2 h1 h2
  obtain rfl : cs1 = cs1Bad F := Bool.eq_iff_iff.2 (h1.trans (cs1Bad_iff F).symm)
  obtain rfl : cs2 = cs2Bad F := Bool.eq_iff_iff.2 (h2.trans (cs2Bad_iff F).symm)
  simp only [← badMarkers_iff, ← Bool.and_eq_true]
  rfl

/-- Settles O15: the guards of the OK exit; the payload is as long as the frame's length leaves room for. -/
theorem extractSuccess : Obligations.ExtractSuccess := by
  rintro F strict m rfl hok
  obtain ⟨len, clear, h⟩ := extract_ok hok
  have payload : (slice F 7 (7 + msgLength F)).length = msgLength F := by
    rw [slice_length]
    omega
  rw [h]
  exact ⟨len, rfl, rfl, payload, cs1Bad_iff F, cs2Bad_iff F, clear⟩

/-! ### Frames that pass every test -/

/-- A frame with its own length, its markers and both checksums. -/
structure Intact (f : List Byte) : Prop where
  length : f.length = msgLength f + 8
  markers : badMarkers f = false
  cs1 : cs1Bad f = false
  cs2 : cs2Bad f = false

theorem Intact.extract_eq {f : List Byte} (h : Intact f) (strict : Bool) :
    extract f strict = ⟨.ok, false, false, le16 (byteAt f 5) (byteAt f 6), slice f 7 (7 + msgLength f)⟩ := by
  simp [extract, Config.innerOverhead, h.length, h.markers, h.cs1, h.cs2]

/-- The builder's inner frames pass every test (R142). -/
theorem innerFrame_intact (topic : Half) {P : List Byte} (h : P.length ≤ 65527) : Intact (innerFrame topic P) := by
  have hm : msgLength (innerFrame topic P) = P.length := msgLength_innerFrame topic (by omega)
  refine ⟨by simp [hm], rfl, ?_, ?_⟩
  · simp [cs1Bad, csumOk, innerFrame_checksum1]
  · simp [cs2Bad, csumOk, hm, innerFrame_checksum2]

/-- Settles O17: the slice is the inner frame, which passes every test and holds topic and payload. -/
theorem extractOfBuild : Obligations.ExtractOfBuild := by
  intro topic rid P E strict hP hbuild
  obtain ⟨-, rfl⟩ := (build_eq_some_iff topic rid P E).1 hbuild
  have hslice : slice (envelope topic rid P) 4 (P.length + 12) = innerFrame topic P := by
    rw [slice, List.take_of_length_le (envelope_length topic rid P).le, envelope_drop]
  rw [hslice, (innerFrame_intact topic hP).extract_eq, msgLength_innerFrame topic (by omega), innerFrame_topic,
    innerFrame_payload]

end Sys2Proof.Machine
end

section
/-! PROOFS. Detection (spec/42_frame_extractor.md R171). A checksum and the bytes it covers sum to 255 mod 256 together
(`csumOk_slice_iff`), so one changed byte among them, wherever it stands, fails the checksum. -/

namespace Sys2Proof.Machine

/-! ### Byte strings with one byte set -/

theorem byteAt_set_self {f : List Byte} {k : Nat} (b : Byte) (hk : k < f.length) : byteAt (f.set k b) k = b := by
  simp [byteAt, hk]

theorem byteAt_set_ne (f : List Byte) {k i : Nat} (b : Byte) (h : k ≠ i) : byteAt (f.set k b) i = byteAt f i := by
  simp [byteAt, List.getElem?_set_ne h]

/-- A byte set at or after a slice's start is set in the slice, where past the slice's end nothing is set. -/
theorem slice_set (f : List Byte) (i j k : Nat) (b : Byte) :
    slice (f.set k b) i j = if k < i then slice f i j else (slice f i j).set (k - i) b := by
  rw [slice, List.take_set, List.drop_set]
  rfl

theorem slice_set_outside (f : List Byte) {i j k : Nat} (b : Byte) (h : k < i ∨ j ≤ k) :
    slice (f.set k b) i j = slice f i j := by
  rw [slice_set]
  split_ifs with hk
  · rfl
  · exact List.set_eq_of_length_le (by rw [slice_length]; omega)

theorem byteAt_slice {f : List Byte} {i j k : Nat} (hi : i ≤ k) (hj : k < j) : byteAt (slice f i j) (k - i) = byteAt f k := by
  simp [byteAt, slice, Nat.add_sub_cancel' hi, hj]

/-- The slice with one byte more. -/
theorem slice_succ {f : List Byte} {i j : Nat} (hi : i ≤ j) (hj : j < f.length) :
    slice f i (j + 1) = slice f i j ++ [byteAt f j] := by
  rw [slice, List.take_add_one, List.drop_append_of_le_length (by simp; omega)]
  simp [byteAt, slice, hj]

/-! ### A checksum and a changed byte -/

/-- A stretch of bytes passes its checksum when, the checksum's byte included, it sums to 255 mod 256 (R123). -/
theorem csumOk_slice_iff {f : List Byte} {i j : Nat} (hi : i ≤ j) (hj : j < f.length) :
    csumOk (slice f i j) (byteAt f j) = true ↔ sumBytes (slice f i (j + 1)) % 256 = 255 := by
  rw [csumOk_iff, checksum_eq_iff_sum_add, slice_succ hi hj]
  simp

/-- R124: one changed byte, of the covered bytes or the checksum itself, fails a checksum that passed. -/
theorem csumOk_set_eq_false {f : List Byte} {i j k : Nat} {b : Byte} (hok : csumOk (slice f i j) (byteAt f j) = true)
    (hi : i ≤ k) (hk : k ≤ j) (hj : j < f.length) (hb : byteAt f k ≠ b) :
    csumOk (slice (f.set k b) i j) (byteAt (f.set k b) j) = false := by
  have hold := (csumOk_slice_iff (hi.trans hk) hj).1 hok
  have hsum := sumBytes_set (bs := slice f i (j + 1)) (k := k - i) b (by rw [slice_length]; omega)
  rw [byteAt_slice hi (Nat.lt_succ_of_le hk)] at hsum
  have hne : (byteAt f k).toNat ≠ b.toNat := BitVec.toNat_inj.not.2 hb
  have := (byteAt f k).isLt
  have := b.isLt
  rw [Bool.eq_false_iff, ne_eq, csumOk_slice_iff (hi.trans hk) (by simpa using hj), slice_set, if_neg (by omega)]
  omega

/-! ### The extractor's tests on a changed frame -/

theorem Intact.badMarkers_set {f : List Byte} {k : Nat} {b : Byte} (h : Intact f) (hb : byteAt f k ≠ b) :
    badMarkers (f.set k b) = decide (k < 2) := by
  have hk := h.length
  obtain ⟨h0, h1⟩ := (badMarkers_eq_false_iff f).1 h.markers
  rcases k with _ | _ | k
  · rw [h0] at hb
    exact (badMarkers_iff _).2 (.inl (by rw [byteAt_set_self b (by omega)]; exact hb.symm))
  · rw [h1] at hb
    exact (badMarkers_iff _).2 (.inr (by rw [byteAt_set_self b (by omega)]; exact hb.symm))
  · simpa [badMarkers, byteAt_set_ne] using h.markers

theorem Intact.cs1Bad_set {f : List Byte} {k : Nat} {b : Byte} (h : Intact f) (hb : byteAt f k ≠ b) (hk : 2 ≤ k) :
    cs1Bad (f.set k b) = decide (k < 5) := by
  have hlen := h.length
  have hcs := h.cs1
  by_cases hlt : k < 5
  · simp only [cs1Bad, Bool.not_eq_false'] at hcs
    simp [cs1Bad, csumOk_set_eq_false hcs hk (Nat.le_of_lt_succ hlt) (by omega) hb, hlt]
  · simpa [cs1Bad, slice_set_outside f b (.inr (by omega : 4 ≤ k)), byteAt_set_ne f b (by omega : k ≠ 4), hlt] using hcs

theorem msgLength_set (f : List Byte) {k : Nat} (b : Byte) (hk : 4 ≤ k) : msgLength (f.set k b) = msgLength f := by
  simp [msgLength, byteAt_set_ne f b (by omega : k ≠ 2), byteAt_set_ne f b (by omega : k ≠ 3)]

theorem Intact.cs2Bad_set {f : List Byte} {k : Nat} {b : Byte} (h : Intact f) (hk : k < f.length) (hb : byteAt f k ≠ b)
    (h5 : 5 ≤ k) : cs2Bad (f.set k b) = true := by
  have hlen := h.length
  have hcs := h.cs2
  simp only [cs2Bad, Bool.not_eq_false'] at hcs
  simp [cs2Bad, msgLength_set f b (by omega : 4 ≤ k), csumOk_set_eq_false hcs h5 (by omega) (by omega) hb]

/-- R171: where one byte of a frame that passes every test is changed, strict mode answers by the byte's place. -/
theorem Intact.extract_set {f : List Byte} {k : Nat} {b : Byte} (h : Intact f) (hk : k < f.length) (hb : byteAt f k ≠ b) :
    extract (f.set k b) true =
      if k < 2 then .fail .badSyncOrVersion false false
      else if k < 5 then .fail .checksumMismatch true false
      else .fail .checksumMismatch false true := by
  have hlen := h.length
  have long : 8 ≤ (f.set k b).length := by rw [List.length_set]; omega
  have markers := h.badMarkers_set hb
  split_ifs with h2 h5
  · exact extract_of_badMarkers long (by simpa [h2] using markers) true
  · have cs1 := h.cs1Bad_set hb (not_lt.1 h2)
    exact extract_strict_of_cs1Bad long (by simpa [h2] using markers) (by simpa [h5] using cs1)
  · have cs1 := h.cs1Bad_set hb (not_lt.1 h2)
    have same : msgLength (f.set k b) = msgLength f := msgLength_set f b (by omega)
    exact extract_strict_of_cs2Bad (by rw [List.length_set, same, hlen]) (by simpa [h2] using markers)
      (by simpa [h5] using cs1) (h.cs2Bad_set hk hb (not_lt.1 h5))

/-- Settles O18: a built inner frame passes every test; two bytes of its payload exchanged keep the sum. -/
theorem singleByteDetection : Obligations.SingleByteDetection := by
  constructor
  · rintro topic rid P E F k b hbuild rfl hk hb
    obtain ⟨hP, rfl⟩ := (build_eq_some_iff topic rid P E).1 hbuild
    exact (innerFrame_intact topic hP).extract_set hk hb
  · exact ⟨5, 3, [1, 2], [2, 1], _, 7, 8, 2, 1, rfl, by decide, by decide, by decide⟩

end Sys2Proof.Machine
end

section
/-! PROOFS. One step of a pull (spec/43_stream_reader.md): its acceptance, the byte it takes, the envelope it completes, the closure
it observes and the Timeout draw, each as the whole next state. -/

namespace Sys2Proof.Machine

/-! ### Acceptance and the taken byte -/

/-- Settles O20: the acceptance by its two cases, the closure latched or not. -/
theorem pullAccepted : Obligations.PullAccepted := by
  intro i s hi idle
  rw [exec_pull_idle ((isPull_iff i).2 hi) idle]
  constructor <;> intro closed <;> simp only [pullAccept, closed] <;> rfl

/-- Settles O21: the cases of `take`. -/
theorem takeOrder : Obligations.TakeOrder := fun s b _ =>
  ⟨fun h => (take_some_iff s _ b).2 (.inl ⟨_, h, rfl⟩), fun h hq => (take_some_iff s _ b).2 (.inr ⟨h, _, hq, rfl⟩),
    fun h hq => (take_none_iff s).2 ⟨h, hq⟩⟩

/-- `take` does not look at RXC. -/
theorem take_withRxc {s s1 : State} {b : Byte} (h : s.take = some (b, s1)) (x : Chan) :
    ({ s with rxc := x } : State).take = some (b, { s1 with rxc := x }) := by
  rcases (take_some_iff _ _ _).1 h with ⟨r, hr, rfl⟩ | ⟨hr, q, hq, rfl⟩
  · exact (take_some_iff _ _ _).2 (.inl ⟨r, hr, rfl⟩)
  · exact (take_some_iff _ _ _).2 (.inr ⟨hr, q, hq, rfl⟩)

theorem recvStep_take {done : Byte → List Byte → State → State} {s s1 : State} {b : Byte}
    (h : s.take = some (b, s1)) : recvStep done s = recvByte done b s1 := by
  simp [recvStep, h]

/-- A pending pull takes the byte that is there (R192 case 1). -/
theorem exec_pull_take {i : Instr} {s s1 : State} {b : Byte} (hi : isPull i = true) (pending : s.rxc.cmd = some i)
    (h : s.take = some (b, s1)) : exec i s = .next (recvByte (pullDone i) b s1) := by
  rw [exec_pull_pending hi pending, recvStep_take h]

theorem take_rxc {s s1 : State} {b : Byte} (h : s.take = some (b, s1)) : s1.rxc = s.rxc := by
  rw [take_rest h]

theorem take_cnt {s s1 : State} {b : Byte} (h : s.take = some (b, s1)) : s1.cnt = s.cnt := by
  rw [take_rest h]

theorem take_rx_eq {s s1 : State} {b : Byte} (h : s.take = some (b, s1)) :
    s1.rx = { s.rx with replay := s1.rx.replay } := by
  obtain ⟨r, hrx, -⟩ := take_rx h
  rw [hrx]

/-- Settles O22: the byte in HUNT is the sync byte, or is dropped below the budget or at it. -/
theorem huntStep : Obligations.HuntStep := by
  intro i s s1 b hi pending hst hb
  have hrx := take_rx_eq hb
  have hst1 : s1.rx.st = .hunt := by rw [hrx, hst]
  have hrun : s1.rx.huntRun = s.rx.huntRun := by rw [hrx]
  rw [exec_pull_take ((isPull_iff i).2 hi) pending hb, ← take_rxc hb, ← take_cnt hb, ← hrun]
  refine ⟨?_, fun hne below => ?_, fun hne reached => ?_⟩
  · rintro rfl
    exact congrArg Host.Outcome.next (recvByte_sync _ s1 hst1)
  · rw [recvByte_drop _ b s1 hst1 hne]
    rcases dropByte_cases s1 with ⟨-, h⟩ | ⟨reached, -⟩
    · rw [h]
    · exact absurd reached below
  · rw [recvByte_drop _ b s1 hst1 hne]
    rcases dropByte_cases s1 with ⟨below, -⟩ | ⟨-, h⟩
    · exact absurd reached below
    · rw [h]
      rfl

/-- Settles O23: the two header states take their byte without a test. -/
theorem headerBytesTaken : Obligations.HeaderBytesTaken := by
  intro i s s1 b hi pending hb
  have hst1 : s1.rx.st = s.rx.st := by rw [take_rx_eq hb]
  rw [exec_pull_take ((isPull_iff i).2 hi) pending hb]
  exact ⟨fun hst => congrArg _ (recvByte_hdrId _ b s1 (hst1.trans hst)),
    fun hst => congrArg _ (recvByte_hdrLenLo _ b s1 (hst1.trans hst))⟩

/-! ### No byte: the closure and the Timeout draw -/

/-- Settles O30: `take` finds nothing and the source is closed, the second case of the receive step. -/
theorem closureObserved : Obligations.ClosureObserved := by
  intro i s hi pending hreplay hq closed
  have hnone : s.take = none := (take_none_iff s).2 ⟨hreplay, hq⟩
  have hstep : recvStep (pullDone i) s = observeClosure s := by simp [recvStep, hnone, closed]
  have hrx : ({ s.rx.toHunt with huntRun := 0 } : RxPath) = RxPath.idle [] 0 := by
    rw [← hreplay]
    rfl
  rw [exec_pull_pending ((isPull_iff i).2 hi) pending, hstep, observeClosure, hrx]
  rfl

theorem pullHolds_iff (s : State) :
    s.pullHolds = true ↔ s.pullPending = true ∧ s.rx.replay = [] ∧ s.env.srcQ = [] ∧ s.env.srcClosed = false := by
  simp [State.pullHolds, take_none_iff, and_assoc]

/-- Settles O32: the draw is enabled where the parameter is true and the pull holds. -/
theorem timeoutDraw : Obligations.TimeoutDraw := by
  intro i s hi pending
  have hp : s.pullPending = true := by simp [State.pullPending, pending, (isPull_iff i).2 hi]
  constructor
  · intro hreplay hq isOpen
    have holds : s.pullHolds = true := (pullHolds_iff s).2 ⟨hp, hreplay, hq, isOpen⟩
    simp only [applyMove, timeoutStep, holds, Bool.and_true]
    rfl
  · intro input
    have free : s.pullHolds = false := by
      rw [Bool.eq_false_iff, ne_eq, pullHolds_iff]
      rintro ⟨-, hreplay, hq, isOpen⟩
      simp [hreplay, hq, isOpen] at input
    simp [applyMove, timeoutStep, free]

end Sys2Proof.Machine
end

section
/-! PROOFS. The step that completes an envelope (spec/43_stream_reader.md R202, R208 to R213): what both pulls do there is
`recvStep_completes`; then RX_NEXT_ENV returns the payload, and RX_NEXT_FRAME extracts it and may replay it. -/

namespace Sys2Proof.Machine

/-- The state that a completed envelope leaves for the pull (R202): the receive registers are back in HUNT and CNT_ENV counts. -/
def State.rehunted (s : State) : State :=
  { s with rx := RxPath.idle s.rx.replay s.rx.huntRun, cnt := { s.cnt with env := s.cnt.env + 1 } }

@[simp] theorem rehunted_rxc (s : State) : s.rehunted.rxc = s.rxc := rfl

/-- R202: the completing step returns the receive registers to HUNT, counts the envelope and hands its robot id and payload on. -/
theorem recvStep_completes (done : Byte → List Byte → State → State) {s s1 : State} {e : List Byte}
    (h : CompletesEnvelope s s1 e) : recvStep done s = done s.rx.rid e s1.rehunted := by
  obtain ⟨b, hb, hlast⟩ := h
  have hrx := take_rx_eq hb
  have hst1 : s1.rx.st = s.rx.st := by rw [hrx]
  have hrid : s1.rx.rid = s.rx.rid := by rw [hrx]
  rw [recvStep_take hb, ← hrid]
  rcases hlast with ⟨hst, hlen, rfl⟩ | ⟨hst, hlo, rfl, rfl⟩
  · have hbuf : s1.rx.buf = s.rx.buf := by rw [hrx]
    have hlen1 : s1.rx.buf.length + 1 = s1.rx.len.toNat := by rw [hrx, hlen]
    rw [← hbuf]
    exact recvByte_last done b s1 (hst1.trans hst) hlen1
  · have hlen1 : le16 s1.rx.lenLo 0 = 0 := by
      rw [hrx, hlo]
      rfl
    exact recvByte_empty done 0 s1 (hst1.trans hst) hlen1

/-- The completing step does not look at RXC before it hands the envelope on. -/
theorem CompletesEnvelope.withRxc {s s1 : State} {e : List Byte} (h : CompletesEnvelope s s1 e) (x : Chan) :
    CompletesEnvelope { s with rxc := x } { s1 with rxc := x } e := by
  obtain ⟨b, hb, hlast⟩ := h
  exact ⟨b, take_withRxc hb x, hlast⟩

theorem CompletesEnvelope.rxc {s s1 : State} {e : List Byte} (h : CompletesEnvelope s s1 e) : s1.rxc = s.rxc := by
  obtain ⟨b, hb, -⟩ := h
  exact take_rxc hb

/-- A completed envelope's length is the 16-bit length of its header. -/
theorem CompletesEnvelope.length_lt {s s1 : State} {e : List Byte} (h : CompletesEnvelope s s1 e) : e.length < 2 ^ 16 := by
  obtain ⟨b, -, ⟨-, hlast, rfl⟩ | ⟨-, -, -, rfl⟩⟩ := h
  · rw [List.length_append, List.length_singleton, hlast]
    exact s.rx.len.isLt
  · decide

/-- Settles O25: RX_NEXT_ENV's completion is its response, and no more. -/
theorem envelopeReturned : Obligations.EnvelopeReturned := by
  intro s s1 e pending h
  rw [execRxNextEnv_pending s pending, recvStep_completes envDone h]
  rfl

/-! ### The rescan -/

/-- RX_NEXT_FRAME with the rescan sampled off writes no receive register (R209). -/
theorem frameDone_noRescan {s : State} (off : s.rxc.cfg.rescan = false) (rid : Byte) (e : List Byte) :
    frameDone rid e s =
      complete .rxc { verdictResponse (extract e s.rxc.cfg.strict) with r8 := rid }
        { s with
          cnt := s.cnt.verdict (extract e s.rxc.cfg.strict)
          sticky := s.sticky.verdict (extract e s.rxc.cfg.strict) } := by
  simp [frameDone, off]

/-- A reject with the rescan sampled on puts the envelope after its sync byte back (R213). -/
theorem frameDone_rescan_rx {s : State} {e : List Byte} (on : s.rxc.cfg.rescan = true)
    (reject : (extract e s.rxc.cfg.strict).status ≠ .ok) (rid : Byte) :
    (frameDone rid e s).rx = { s.rx with replay := rescanBytes rid e ++ s.rx.replay } := by
  simp [frameDone, on, reject]

theorem dropByte_replay (s : State) : (dropByte s).rx.replay = s.rx.replay := by
  rcases dropByte_cases s with ⟨-, h⟩ | ⟨-, h⟩ <;> simp [h]

/-- What RX_NEXT_ENV does with a byte leaves the replay queue. -/
theorem recvByte_envDone_replay (b : Byte) (s : State) : (recvByte envDone b s).rx.replay = s.rx.replay := by
  rcases recvByte_cases envDone b s with ⟨-, -, h⟩ | ⟨-, -, h⟩ | ⟨-, h⟩ | ⟨-, h⟩ | ⟨-, -, h⟩ | ⟨-, -, h⟩ | ⟨-, -, h⟩ |
    ⟨-, -, h⟩ <;> rw [h]
  case inr.inl => exact dropByte_replay s
  all_goals rfl

/-- A receive step of RX_NEXT_ENV leaves the replay queue or takes its head. -/
theorem recvStep_envDone_replay (s : State) :
    (recvStep envDone s).rx.replay = s.rx.replay ∨ ∃ b, s.rx.replay = b :: (recvStep envDone s).rx.replay := by
  rcases recvStep_cases envDone s with ⟨b, s1, hb, h⟩ | ⟨-, -, h⟩ | ⟨-, -, h⟩ <;> rw [h]
  · rw [recvByte_envDone_replay]
    obtain ⟨r, hrx, hr | ⟨rfl, hr⟩⟩ := take_rx hb
    · exact .inr ⟨b, by rw [hrx, hr]⟩
    · exact .inl (by rw [hrx, hr])
  · exact .inl rfl
  · exact .inl rfl

/-- Settles O28: the rescan's bytes, whose 16-bit length is exact since a header declared it; and RX_NEXT_ENV's receive step. -/
theorem rescanReplays : Obligations.RescanReplays := by
  constructor
  · intro s s1 e pending h on reject
    have hlen : (BitVec.ofNat 16 e.length).toNat = e.length := by
      rw [BitVec.toNat_ofNat, Nat.mod_eq_of_lt h.length_lt]
    rw [← h.rxc, ← rehunted_rxc] at on reject
    refine ⟨frameDone s.rx.rid e s1.rehunted, ?_, ?_⟩
    · rw [execRxNextFrame_pending s pending, recvStep_completes frameDone h]
    · rw [frameDone_rescan_rx on reject]
      exact ⟨rfl, hlen, rfl, rfl, rfl⟩
  · intro s t pending hstep
    cases (execRxNextEnv_pending s pending).symm.trans hstep
    exact recvStep_envDone_replay s

/-! ### RX_NEXT_FRAME as RX_NEXT_ENV and EXTRACT -/

/-- EXTRACT on an idle channel answers with its verdict (R169). -/
theorem execExtract_answered {c : Channel} {s : State} (idle : (s.chan c).cmd = none) (data : List Byte) :
    exec (.extract c data) s = .next (s.answered c (verdictResponse (extract data s.ctrl.strict))) := by
  rw [execExtract_idle c data s idle, complete_accept]
  rfl

/-- Settles O29: both pulls hand on the same envelope, and without rescan RX_NEXT_FRAME's completion writes only the channel, the
counters and the sticky bits. -/
theorem frameIsEnvThenExtract : Obligations.FrameIsEnvThenExtract := by
  intro s s1 t u e c x pending off h ht hu idle strict
  have hrxc := h.rxc
  have off1 : s1.rehunted.rxc.cfg.rescan = false := by rw [rehunted_rxc, hrxc, off]
  rw [execRxNextFrame_pending s pending, recvStep_completes frameDone h, frameDone_noRescan off1] at ht
  rw [execRxNextEnv_pending _ rfl, recvStep_completes envDone (h.withRxc _)] at hu
  cases ht
  cases hu
  refine ⟨{ verdictResponse (extract e s1.rxc.cfg.strict) with r8 := s.rx.rid }, envResponse s.rx.rid e,
    verdictResponse (extract e x.ctrl.strict), ?_, rfl, rfl, execExtract_answered idle e, ?_, rfl, rfl, rfl⟩
  · rw [← hrxc]
    rfl
  · rw [strict, hrxc]

end Sys2Proof.Machine
end

section
/-! PROOFS. How a pull ends (spec/43_stream_reader.md R223): `PullProgress` says what a step may make of RXC while it executes a pull,
and every transition keeps to it. -/

namespace Sys2Proof.Machine

/-- The statuses a pull may end with (R223); a reject status ends RX_NEXT_FRAME alone. -/
def PullEnds (i : Instr) (st : Status) : Prop :=
  st ∈ [Status.ok, .noSyncFound, .sourceClosed, .timeout, .aborted] ∨
    (i = .rxNextFrame ∧ st ∈ [Status.badSyncOrVersion, .checksumMismatch, .badLength])

/-- RXC, executing the pull `i` before in `x`, has gone on with it in `y`, or has ended it with one response. -/
def PullProgress (i : Instr) (x y : Chan) : Prop :=
  (y.cmd = x.cmd ∧ y.resp = x.resp) ∨ (y.cmd = none ∧ ∃ r, y.resp = x.resp ++ [r] ∧ PullEnds i r.status)

theorem pullProgress_of_eq {i : Instr} {x y : Chan} (h : y = x) : PullProgress i x y :=
  .inl ⟨congrArg _ h, congrArg _ h⟩

theorem pullProgress_complete {i : Instr} {x : Chan} {s : State} {r : Response} (h : s.rxc.resp = x.resp)
    (ends : PullEnds i r.status) : PullProgress i x (complete .rxc r s).rxc :=
  .inr ⟨rfl, r, congrArg (· ++ [r]) h, ends⟩

/-! ### The receive step -/

/-- The extractor answers OK or a reject status (R160). -/
theorem extract_status (f : List Byte) (strict : Bool) :
    (extract f strict).status = .ok ∨
      (extract f strict).status ∈ [Status.badSyncOrVersion, .checksumMismatch, .badLength] := by
  rcases extract_cases f strict with ⟨-, h⟩ | ⟨-, -, h⟩ | ⟨-, -, -, -, h⟩ | ⟨-, -, -, -, h⟩ | ⟨-, -, -, -, -, h⟩ |
    ⟨-, -, -, h⟩ <;> simp [h]

/-- A completed envelope ends RX_NEXT_ENV with OK and RX_NEXT_FRAME with the extractor's status. -/
theorem pullDone_progress {i : Instr} (hi : isPull i = true) (rid : Byte) (e : List Byte) (s : State) :
    PullProgress i s.rxc (pullDone i rid e s).rxc := by
  rcases (isPull_iff i).1 hi with rfl | rfl
  · exact pullProgress_complete rfl (.inl (by simp [envResponse, Response.done]))
  · refine pullProgress_complete rfl ?_
    rcases extract_status e s.rxc.cfg.strict with h | h
    · exact .inl (by simp [verdictResponse, h])
    · exact .inr ⟨rfl, h⟩

theorem dropByte_progress (i : Instr) (s : State) : PullProgress i s.rxc (dropByte s).rxc := by
  rcases dropByte_cases s with ⟨-, h⟩ | ⟨-, h⟩ <;> rw [h]
  · exact pullProgress_of_eq rfl
  · exact pullProgress_complete rfl (.inl (by decide))

theorem recvByte_progress {i : Instr} (hi : isPull i = true) (b : Byte) (s : State) :
    PullProgress i s.rxc (recvByte (pullDone i) b s).rxc := by
  rcases recvByte_outcome (pullDone i) b s with ⟨rx, h⟩ | h | ⟨e, h⟩ <;> rw [h]
  · exact pullProgress_of_eq rfl
  · exact dropByte_progress i s
  · exact pullDone_progress hi s.rx.rid e { s with rx := s.rx.toHunt, cnt := { s.cnt with env := s.cnt.env + 1 } }

theorem recvStep_progress {i : Instr} (hi : isPull i = true) (s : State) :
    PullProgress i s.rxc (recvStep (pullDone i) s).rxc := by
  rcases recvStep_cases (pullDone i) s with ⟨b, s1, hb, h⟩ | ⟨-, -, h⟩ | ⟨-, -, h⟩ <;> rw [h]
  · rw [← take_rxc hb]
    exact recvByte_progress hi b s1
  · exact pullProgress_complete rfl (.inl (by decide))
  · exact pullProgress_of_eq rfl

/-! ### The step -/

/-- A reset ends a pending pull with Aborted (R293). -/
theorem abortedChan_progress {i : Instr} {x : Chan} (pending : x.cmd = some i) : PullProgress i x (abortedChan x) :=
  .inr ⟨rfl, Response.fail .aborted, by simp [abortedChan, pending], .inl (by decide)⟩

theorem softReset_rxc (s : State) : (softReset s).rxc = abortedChan s.rxc := by
  rw [softReset_eq]

theorem sendAccept_rxc (rid : Byte) (topic : Half) (data : List Byte) (s : State) :
    (sendAccept rid topic data s).rxc = s.rxc := by
  rcases sendAccept_cases rid topic data s with ⟨-, h⟩ | ⟨e, -, -, h⟩ | ⟨e, -, -, h⟩ <;> simp [h, raise, complete]

theorem sendWait_rxc (s : State) : (sendWait s).rxc = s.rxc := by
  rcases sendWait_cases s with ⟨-, h⟩ | ⟨-, h⟩ <;> simp [h, raise, complete]

/-- While RXC is busy an idle channel is another one. -/
theorem rxc_ne_of_idle {s : State} {c : Channel} {i : Instr} (pending : s.rxc.cmd = some i) (idle : (s.chan c).cmd = none) :
    .rxc ≠ c := by
  rintro rfl
  cases pending.symm.trans idle

theorem Transition.pullProgress {s t : State} {m : Move} {i : Instr} (h : Transition s m t) (pending : s.rxc.cmd = some i) :
    PullProgress i s.rxc t.rxc := by
  cases h with
  | receive pending' pull =>
    cases pending.symm.trans pending'
    exact recvStep_progress pull s
  | timeout => exact pullProgress_complete rfl (.inl (by decide))
  | powerOn => exact softReset_rxc s ▸ abortedChan_progress pending
  | pullAccept idle => cases pending.symm.trans idle
  | @csrWrite x off v =>
    rcases writeEffect_cases off v (accept .ctlc (.csrWrite off v) (unplace .ctlc s)) with
      ⟨-, -, k, h⟩ | ⟨k, st, cnt, h⟩ <;> rw [h]
    · exact softReset_rxc { accept .ctlc (.csrWrite off v) (unplace .ctlc s) with ctrl := k } ▸ abortedChan_progress pending
    · exact pullProgress_of_eq rfl
  | refuse idle =>
    have hc := rxc_ne_of_idle pending idle
    exact pullProgress_of_eq ((complete_chan_ne _ _ hc).trans (unplace_chan_ne s hc))
  | answer idle =>
    have hc := rxc_ne_of_idle pending idle
    exact pullProgress_of_eq ((complete_chan_ne _ _ hc).trans ((accept_chan_ne _ _ hc).trans (unplace_chan_ne s hc)))
  | place idle => exact pullProgress_of_eq (chan_setChan_ne s _ (rxc_ne_of_idle pending idle))
  | sendAccept => exact pullProgress_of_eq (sendAccept_rxc _ _ _ _)
  | sendWait => exact pullProgress_of_eq (sendWait_rxc s)
  | stutter | refuseOffset | srcByte | srcClose | snkAccept | snkClose => exact pullProgress_of_eq rfl

/-- Settles O37: the step's transition makes of RXC what `PullProgress` allows. -/
theorem pullEndsOneWay : Obligations.PullEndsOneWay := by
  intro s t i hinv pending hstep
  have h := (step_transition hinv.commandRule hstep).pullProgress (i := i) (by rw [draw_rxc, pending])
  rw [draw_rxc, PullProgress, pending] at h
  exact h

end Sys2Proof.Machine
end

section
/-! PROOFS. What every step keeps of the running commands and of the receive datapath, and so along every run (spec/43_stream_reader.md
R214). -/

namespace Sys2Proof.Machine

/-! ### The running commands -/

/-- A command that ends leaves the rule of the running commands as it was. -/
theorem CommandRule.of_fewer {s t : State} (hs : CommandRule s) (hrx : t.rxc.cmd = s.rxc.cmd ∨ t.rxc.cmd = none)
    (hct : t.ctlc.cmd = none) (htx : (t.txc.cmd = s.txc.cmd ∧ t.txEnv = s.txEnv) ∨ (t.txc.cmd = none ∧ t.txEnv = [])) :
    CommandRule t := by
  obtain ⟨hsrx, -, hstx, hsenv⟩ := hs
  refine ⟨?_, hct, ?_⟩
  · rcases hrx with h | h <;> simp [h, hsrx]
  · rcases htx with ⟨h, he⟩ | ⟨h, he⟩
    · rw [h, he]
      exact ⟨hstx, hsenv⟩
    · simp [h, he]

/-- Writing an idle channel that stays idle leaves the rule, whatever else of the channel is written. -/
theorem CommandRule.setChan_idle {s : State} {c : Channel} {x : Chan} (hs : CommandRule s) (idle : (s.chan c).cmd = none)
    (hx : x.cmd = none) : CommandRule (s.setChan c x) := by
  have ⟨_, hct, _, henv⟩ := hs
  cases c with
  | rxc => exact hs.of_fewer (.inr hx) hct (.inl ⟨rfl, rfl⟩)
  | txc => exact hs.of_fewer (.inl rfl) hct (.inr ⟨hx, henv idle⟩)
  | ctlc => exact hs.of_fewer (.inl rfl) hx (.inl ⟨rfl, rfl⟩)

theorem Received.ctlc {s1 t : State} (h : Received s1 t) : t.ctlc = s1.ctlc := by
  cases h <;> rfl

theorem recvStep_ctlc (i : Instr) (s : State) : (recvStep (pullDone i) s).ctlc = s.ctlc := by
  obtain ⟨s1, rfl | ⟨b, hb⟩, h⟩ := recvStep_received i s
  · exact h.ctlc
  · rw [h.ctlc, take_rest hb]

theorem pullAccept_commandRule {i : Instr} {s : State} (hs : CommandRule s) (pull : isPull i = true) :
    CommandRule (pullAccept i s) := by
  obtain ⟨-, hct, htx, henv⟩ := hs
  unfold pullAccept
  cases s.rxClosed
  · exact ⟨by simp [accept, pull], hct, htx, henv⟩
  · exact ⟨rfl, hct, htx, henv⟩

theorem softReset_commandRule (s : State) : CommandRule (softReset s) := by
  rw [softReset_eq]
  exact ⟨rfl, rfl, rfl, fun _ => rfl⟩

theorem Transition.commandRule {s t : State} {m : Move} (h : Transition s m t) (hs : CommandRule s) : CommandRule t := by
  have ⟨hrx, hct, htx, henv⟩ := hs
  cases h with
  | stutter => exact hs
  | powerOn => exact softReset_commandRule s
  | receive pending pull =>
    obtain ⟨htxc, htxEnv⟩ := recvStep_sameSend _ s
    refine hs.of_fewer ?_ (by rw [recvStep_ctlc, hct]) (.inl ⟨by rw [htxc], htxEnv⟩)
    exact (recvStep_progress pull s).imp And.left And.left
  | pullAccept _ _ _ pull => exact pullAccept_commandRule (s := unplace .rxc s) hs pull
  | @sendAccept x rid topic data idle =>
    rcases sendAccept_cases rid topic data (accept .txc (.txSend rid topic data) (unplace .txc s)) with
      ⟨-, h⟩ | ⟨e, -, -, h⟩ | ⟨e, he, -, h⟩ <;> rw [h]
    · exact hs.of_fewer (.inl rfl) hct (.inr ⟨rfl, henv idle⟩)
    · exact hs.of_fewer (.inl rfl) hct (.inr ⟨rfl, henv idle⟩)
    · exact ⟨hrx, hct, by simp [accept, sendEnvelope, he], by simp [accept]⟩
  | sendWait =>
    rcases sendWait_cases s with ⟨-, h⟩ | ⟨-, h⟩ <;> rw [h]
    · exact hs.of_fewer (.inl rfl) hct (.inr ⟨rfl, rfl⟩)
    · exact hs
  | @csrWrite x off v =>
    rcases writeEffect_cases off v (accept .ctlc (.csrWrite off v) (unplace .ctlc s)) with
      ⟨-, -, k, h⟩ | ⟨k, st, cnt, h⟩ <;> rw [h]
    · exact (softReset_commandRule _).of_fewer (.inl rfl) rfl (.inl ⟨rfl, rfl⟩)
    · exact ⟨hrx, rfl, htx, henv⟩
  | refuse idle =>
    rw [raise, complete, unplace, setChan_setChan]
    exact hs.setChan_idle idle rfl
  | refuseOffset idle =>
    rw [raise, complete, unplace, setChan_setChan]
    exact hs.setChan_idle idle rfl
  | answer idle =>
    rw [complete_accept, unplace, setChan_setChan]
    exact hs.setChan_idle idle rfl
  | place idle => exact hs.setChan_idle idle idle
  | timeout => exact hs.of_fewer (.inr rfl) hct (.inl ⟨rfl, rfl⟩)
  | snkAccept => exact hs.of_fewer (.inl rfl) hct (.inr ⟨rfl, rfl⟩)
  | srcByte | srcClose | snkClose => exact hs

/-! ### The receive datapath -/

/-- The rules of the block's invariant that speak of the receive datapath (R26, R202, R214). -/
def ReceiveRule (rx : RxPath) : Prop := BufferRule rx ∧ HeaderRule rx ∧ ReplayRule rx

theorem bufferRule_payload {rx : RxPath} (h : rx.st = .payload) : BufferRule rx ↔ rx.buf.length < rx.len.toNat := by
  simp [BufferRule, h]

theorem bufferRule_empty {rx : RxPath} (h : rx.st ≠ .payload) : BufferRule rx ↔ rx.buf = [] := by
  simp [BufferRule, h]

/-- R26: the declared length is a 16-bit number, and it bounds what is held. -/
theorem BufferRule.length_lt {rx : RxPath} (h : BufferRule rx) : rx.buf.length < 65535 := by
  have := rx.len.isLt
  by_cases hst : rx.st = .payload
  · have := (bufferRule_payload hst).1 h
    omega
  · simp [(bufferRule_empty hst).1 h]

/-- A partial envelope is shorter than REPLAY_CAP. -/
theorem BufferRule.held_lt {rx : RxPath} (h : BufferRule rx) : rx.held < 65538 := by
  have := h.length_lt
  unfold RxPath.held
  cases rx.st <;> simp only <;> omega

/-- A taken byte makes room for itself: it comes off the replay queue, or that queue is empty (R196). -/
theorem take_receiveRule {s s1 : State} {b : Byte} (h : ReceiveRule s.rx) (hb : s.take = some (b, s1)) :
    BufferRule s1.rx ∧ HeaderRule s1.rx ∧ s1.rx.replay.length + s1.rx.held < 65538 := by
  obtain ⟨hbuf, hhdr, hreplay⟩ := h
  obtain ⟨r, hrx, hr⟩ := take_rx hb
  rw [hrx]
  refine ⟨hbuf, hhdr, ?_⟩
  change r.length + s.rx.held < 65538
  rcases hr with hr | ⟨rfl, -⟩
  · rw [ReplayRule, hr, List.length_cons] at hreplay
    omega
  · simpa using hbuf.held_lt

/-- In HUNT the replay queue alone counts. -/
theorem toHunt_receiveRule (rx : RxPath) {q : List Byte} (h : q.length ≤ 65538) :
    ReceiveRule { rx.toHunt with replay := q } :=
  ⟨rfl, fun _ => ⟨rfl, rfl, rfl⟩, h⟩

theorem rescanBytes_length (rid : Byte) (e : List Byte) : (rescanBytes rid e).length = 3 + e.length :=
  List.length_append

/-- A pull's completion writes of the receive datapath at most the replay queue, which takes the envelope after its sync byte. -/
theorem pullDone_rx (i : Instr) (rid : Byte) (e : List Byte) (s : State) :
    ∃ q, (pullDone i rid e s).rx = { s.rx with replay := q } ∧ q.length ≤ 3 + e.length + s.rx.replay.length := by
  have keeps : s.rx.replay.length ≤ 3 + e.length + s.rx.replay.length := Nat.le_add_left _ _
  cases i with
  | rxNextFrame =>
    refine ⟨_, rfl, ?_⟩
    split
    · rw [List.length_append, rescanBytes_length]
    · exact keeps
  | _ => exact ⟨s.rx.replay, rfl, keeps⟩

/-- A completed envelope leaves the rules, whatever the pull does with it. -/
theorem pullDone_receiveRule (i : Instr) (rid : Byte) {e : List Byte} {s : State} {rx : RxPath} (hrx : s.rx = rx.toHunt)
    (he : 3 + e.length + rx.replay.length ≤ 65538) : ReceiveRule (pullDone i rid e s).rx := by
  obtain ⟨q, hq, hlen⟩ := pullDone_rx i rid e s
  rw [hrx] at hq hlen
  rw [hq]
  exact toHunt_receiveRule rx (hlen.trans he)

theorem dropByte_receiveRule {s : State} (h : ReceiveRule s.rx) : ReceiveRule (dropByte s).rx := by
  rcases dropByte_cases s with ⟨-, he⟩ | ⟨-, he⟩ <;> rw [he] <;> exact h

theorem recvByte_receiveRule (i : Instr) (b : Byte) {s : State} (hbuf : BufferRule s.rx) (hhdr : HeaderRule s.rx)
    (room : s.rx.replay.length + s.rx.held < 65538) : ReceiveRule (recvByte (pullDone i) b s).rx := by
  rcases recvByte_cases (pullDone i) b s with ⟨hst, -, h⟩ | ⟨hst, -, h⟩ | ⟨hst, h⟩ | ⟨hst, h⟩ | ⟨hst, hlen, h⟩ |
    ⟨hst, -, h⟩ | ⟨hst, hlen, h⟩ | ⟨hst, hlen, h⟩ <;> rw [h]
  case inr.inl => exact dropByte_receiveRule ⟨hbuf, hhdr, room.le⟩
  all_goals
    simp only [BufferRule, RxPath.held, hst, reduceIte, reduceCtorEq] at hbuf room
  · exact ⟨hbuf, nofun, room.le⟩
  · exact ⟨hbuf, nofun, room⟩
  · exact ⟨hbuf, nofun, room⟩
  · exact ⟨Nat.pos_of_ne_zero fun h0 => hlen (BitVec.eq_of_toNat_eq h0), nofun, room⟩
  · exact pullDone_receiveRule i _ (rx := s.rx) rfl (by rw [List.length_nil]; omega)
  · have more : (s.rx.buf ++ [b]).length < s.rx.len.toNat := by
      rw [List.length_append, List.length_singleton]
      omega
    refine ⟨(bufferRule_payload (rx := { s.rx with buf := s.rx.buf ++ [b] }) hst).2 more, by simp [HeaderRule, hst], ?_⟩
    rw [ReplayRule, RxPath.held]
    simpa [hst, ← Nat.add_assoc] using room
  · exact pullDone_receiveRule i _ (rx := s.rx) rfl (by rw [List.length_append, List.length_singleton]; omega)

theorem recvStep_receiveRule (i : Instr) {s : State} (h : ReceiveRule s.rx) : ReceiveRule (recvStep (pullDone i) s).rx := by
  rcases recvStep_cases (pullDone i) s with ⟨b, s1, hb, he⟩ | ⟨-, -, he⟩ | ⟨-, -, he⟩ <;> rw [he]
  · obtain ⟨hbuf, hhdr, room⟩ := take_receiveRule h hb
    exact recvByte_receiveRule i b hbuf hhdr room
  · obtain ⟨-, -, hreplay⟩ := h
    exact toHunt_receiveRule s.rx (Nat.le_of_add_right_le hreplay)
  · exact h

theorem reset_receiveRule : ReceiveRule RxPath.reset := ⟨rfl, fun _ => ⟨rfl, rfl, rfl⟩, Nat.zero_le _⟩

theorem softReset_rx (s : State) : (softReset s).rx = RxPath.reset := by
  rw [softReset_eq]

@[simp] theorem pullAccept_rx (i : Instr) (s : State) : (pullAccept i s).rx = s.rx := by
  unfold pullAccept
  cases s.rxClosed <;> simp

theorem Transition.receiveRule {s t : State} {m : Move} (h : Transition s m t) (hs : ReceiveRule s.rx) : ReceiveRule t.rx := by
  cases h with
  | receive => exact recvStep_receiveRule _ hs
  | powerOn => exact softReset_rx s ▸ reset_receiveRule
  | @csrWrite x off v =>
    rcases writeEffect_cases off v (accept .ctlc (.csrWrite off v) (unplace .ctlc s)) with
      ⟨-, -, k, h⟩ | ⟨k, st, cnt, h⟩ <;> rw [complete_rx, h]
    · exact softReset_rx _ ▸ reset_receiveRule
    · exact hs
  | _ => simpa [srcShut, snkShut] using hs

/-! ### The runs -/

/-- Every move answers a next state (R288). -/
theorem step_next (s : State) : ∃ t, step s = .next t := by
  unfold step applyMove
  split
  · next c _ =>
    rcases chanStep_cases c s.draw.2 with ⟨i, -, h⟩ | ⟨-, -, h⟩ | ⟨x, e, -, -, -, h⟩ | ⟨x, i, -, -, -, h⟩ <;> rw [h]
    · exact exec_next i _
    · exact ⟨_, rfl⟩
    · exact ⟨_, rfl⟩
    · exact exec_next i _
  all_goals exact ⟨_, rfl⟩

/-- What every step keeps holds after a run of any length. -/
theorem run_keeps {P : State → Prop} (keep : ∀ {s t : State}, P s → step s = .next t → P t) {n : Nat} {s t : State}
    (hs : P s) (h : Host.Core.run core n s = .next t) : P t := by
  induction n generalizing s with
  | zero =>
    cases h
    exact hs
  | succ n ih =>
    obtain ⟨u, hu⟩ := step_next s
    exact ih (keep hs hu) ((run_of_next core n hu).symm.trans h)

/-- The part of the block's invariant that the bound on the replay queue needs. -/
def RunRule (s : State) : Prop := ReceiveRule s.rx ∧ CommandRule s

theorem step_keeps_runRule {s t : State} : RunRule s → step s = .next t → RunRule t
  | ⟨hrx, hcmd⟩, h =>
    have tr := step_transition hcmd h
    ⟨tr.receiveRule (by rwa [draw_rx]), tr.commandRule ((draw_commandRule s).2 hcmd)⟩

/-- Settles O33: the rules of the receive datapath hold along every run, and bound both queues. -/
theorem replayNeverOverflows : Obligations.ReplayNeverOverflows := by
  rintro n s t ⟨hbuf, hhdr, hreplay, hcmd, -⟩ hrun
  obtain ⟨⟨hbuf', -, hreplay'⟩, -⟩ := run_keeps step_keeps_runRule (show RunRule s from ⟨⟨hbuf, hhdr, hreplay⟩, hcmd⟩) hrun
  exact ⟨Nat.le_of_add_right_le hreplay', hbuf'.length_lt.le⟩

end Sys2Proof.Machine
end

section
/-! PROOFS. The control registers (spec/44_control.md): which offsets name one, and what the CSR commands do at any other. -/

namespace Sys2Proof.Machine

/-- An offset names no register when it is not on a word boundary or lies past the last one (R242). -/
theorem csrOffsetOk_eq_false_iff (off : Half) : csrOffsetOk off = false ↔ off.toNat % 4 ≠ 0 ∨ 0x38 ≤ off.toNat := by
  rw [csrOffsetOk, Bool.and_eq_false_iff, beq_eq_false_iff_ne, decide_eq_false_iff_not, Nat.not_lt]

/-- `raise` returns the status with every result field 0, and leaves the rest of the state and of the channel (R262). -/
theorem raise_eq_returned (c : Channel) (e : Status) (s : State) : raise c e s = s.returned c ⟨e, false, false, 0, 0, []⟩ := rfl

/-- Settles O42: both commands test the offset before they accept, and raise at one that names no register. -/
theorem csrOffsetRefused : Obligations.CsrOffsetRefused := by
  intro s off v idle unmapped
  have refused : ¬ csrOffsetOk off = true := Bool.eq_false_iff.1 ((csrOffsetOk_eq_false_iff off).2 unmapped)
  rw [execCsrRead_idle off s idle, execCsrWrite_idle off v s idle, if_neg refused, if_neg refused, raise_eq_returned]
  exact ⟨rfl, rfl⟩

end Sys2Proof.Machine
end

section
/-! PROOFS. The outcomes of the block (spec/60_exceptions.md R288): each move answers a next state, and one with nothing to do
answers the state it found. -/

namespace Sys2Proof.Machine

/-- A busy channel goes on with its command. -/
theorem chanStep_executing (c : Channel) {i : Instr} {s : State} (h : (s.chan c).cmd = some i) : chanStep c s = exec i s := by
  rw [chanStep, h]

theorem recvStep_held {s : State} (holds : s.pullHolds = true) (done : Byte → List Byte → State → State) :
    recvStep done s = s := by
  obtain ⟨-, hreplay, hq, isOpen⟩ := (pullHolds_iff s).1 holds
  simp [recvStep, (take_none_iff s).2 ⟨hreplay, hq⟩, isOpen]

/-- R193: a held pull's step is a hold. -/
theorem chanStep_pull_held {i : Instr} {s : State} (holds : s.pullHolds = true) (executing : s.rxc.cmd = some i) :
    chanStep .rxc s = .next s := by
  have pull : isPull i = true := by simpa [State.pullPending, executing] using ((pullHolds_iff s).1 holds).1
  rw [chanStep_executing .rxc executing, exec_pull_pending pull executing, recvStep_held holds]

theorem sendWait_held {s : State} (isOpen : s.env.snkClosed = false) : sendWait s = s := by
  simp [sendWait, isOpen]

/-- R146: a send held on an open sink has no step of its own on TXC. -/
theorem chanStep_send_held {s : State} (waiting : s.sendWaiting = true) (isOpen : s.env.snkClosed = false) :
    chanStep .txc s = .next s := by
  obtain ⟨rid, topic, data, executing⟩ := (sendWaiting_iff s).1 waiting
  rw [chanStep_executing .txc executing, execTxSend_waiting rid topic data s executing, sendWait_held isOpen]

/-- R11: a busy channel takes no second command. -/
theorem hostPlace_busy {c : Channel} {s : State} (busy : s.busy c = true) (x : Descriptor) : hostPlace c x s = s := by
  simp [hostPlace, busy]

/-- Settles O55: every meaning and every move is total, and the three moves that are not enabled answer the state they found. -/
theorem noFaultOutcome : Obligations.NoFaultOutcome :=
  ⟨step_next, exec_next,
    fun _ s pending executing hreplay hq isOpen =>
      chanStep_pull_held ((pullHolds_iff s).2 ⟨pending, hreplay, hq, isOpen⟩) executing,
    fun _ waiting isOpen => chanStep_send_held waiting isOpen,
    fun _ x _ busy => congrArg Host.Outcome.next (hostPlace_busy busy x)⟩

end Sys2Proof.Machine
end

section
/-! PROOFS. The receive path across a reset (spec/70_reset_and_hazards.md R294): both resets leave it fresh, and a pull accepted
on a fresh path takes the source bytes not taken yet, or observes the closure. -/

namespace Sys2Proof.Machine

/-- The receive path as a reset leaves it (R291): nothing held, no closure latched, no pull pending. -/
structure ReceiveFresh (t : State) : Prop where
  empty : t.rx = RxPath.idle [] 0
  unlatched : t.rxClosed = false
  idle : t.rxc.cmd = none

theorem softReset_receiveFresh (s : State) : ReceiveFresh (softReset s) := by
  rw [softReset_eq]
  exact ⟨rfl, rfl, rfl⟩

theorem powerOnReset_receiveFresh (s : State) : ReceiveFresh (powerOnReset s) :=
  have fresh := softReset_receiveFresh s
  ⟨fresh.empty, fresh.unlatched, fresh.idle⟩

/-- A response on CTLC leaves the receive path. -/
theorem ReceiveFresh.complete_ctlc {s : State} (h : ReceiveFresh s) (r : Response) : ReceiveFresh (complete .ctlc r s) :=
  ⟨h.empty, h.unlatched, h.idle⟩

/-- A write of CTRL with bit 31 set writes the two CTRL fields, then resets (R248). -/
theorem writeEffect_ctrl_softReset {v : Word} (hv : v.getLsbD 31 = true) (s : State) :
    writeEffect 0x00 v s
      = softReset { s with ctrl := { s.ctrl with strict := v.getLsbD 0, rescan := v.getLsbD 1 } } :=
  if_pos hv

/-- Either reset leaves the environment as it was and the receive path fresh. -/
theorem reset_env_receiveFresh {s t : State}
    (h : applyMove .powerOn s = .next t ∨
      ∃ v : Word, v.getLsbD 31 = true ∧ s.ctlc.cmd = none ∧ exec (.csrWrite 0x00 v) s = .next t) :
    t.env = s.env ∧ ReceiveFresh t := by
  rcases h with h | ⟨v, hv, idle, h⟩
  · cases h
    exact ⟨powerOnReset_env s, powerOnReset_receiveFresh s⟩
  · rw [execCsrWrite_idle 0x00 v s idle, if_pos (by decide), writeEffect_ctrl_softReset hv] at h
    cases h
    exact ⟨by simp, (softReset_receiveFresh _).complete_ctlc _⟩

/-- Settles O47: after either reset the pull is accepted on a fresh path, where `take` reads the source queue; with that empty and
the source closed the pull observes the closure (R218). -/
theorem environmentAcrossReset : Obligations.EnvironmentAcrossReset := by
  intro s t h
  obtain ⟨henv, fresh⟩ := reset_env_receiveFresh h
  have hreplay : t.rx.replay = [] := by rw [fresh.empty]; rfl
  refine ⟨henv, fresh.empty, fun i hi => ?_⟩
  have accepts : exec i t = .next (t.accepted .rxc i) := (pullAccepted i t hi fresh.idle).1 fresh.unlatched
  refine ⟨t.accepted .rxc i, accepts, rfl, fun b q hq => ?_, fun hq closed => ?_⟩
  · rw [← henv] at hq
    exact (takeOrder (t.accepted .rxc i) b q).2.1 hreplay hq
  · rw [← henv] at hq closed
    exact ⟨_, closureObserved i (t.accepted .rxc i) hi rfl hreplay hq closed, rfl, rfl⟩

end Sys2Proof.Machine
end

section
/-! PROOFS. The bytes of a command (spec/30_encoding.md R87 to R90): the round trip, and what decode refuses. -/

namespace Sys2Proof

/-- Each command's descriptor decodes on its own channel. -/
theorem decode_encode (i : Instr) : decode i.channel (encode i) = .ok i := by
  cases i with
  | csum c data => exact Laws.RoundTrip.csum c data
  | build c rid topic data => exact Laws.RoundTrip.build c rid topic data
  | extract c data => exact Laws.RoundTrip.extract c data
  | rxNextEnv => exact Laws.RoundTrip.rxNextEnv
  | rxNextFrame => exact Laws.RoundTrip.rxNextFrame
  | txSend rid topic data => exact Laws.RoundTrip.txSend rid topic data
  | csrRead off => exact Laws.RoundTrip.csrRead off
  | csrWrite off v => exact Laws.RoundTrip.csrWrite off v

/-- A well-formed command's lane has a length that DLEN can say; a command with no lane of its own has 0 or 4 bytes. -/
theorem encode_wf {i : Instr} (h : i.wf = true) : (encode i).wf = true := by
  cases i with
  | rxNextEnv | rxNextFrame | csrRead | csrWrite => rfl
  | csum | build | extract | txSend => exact h

/-- Settles O52: the descriptor is read back from its bytes, then decoded. -/
theorem decodeEncodeRoundTrip : Obligations.DecodeEncodeRoundTrip := by
  intro i rest hwf
  simp only [decodeBytes, readDescriptor_bytes (encode i) (encode_wf hwf) rest, decode_encode]

/-- The reserved OP values are those outside R88's map. -/
theorem opOfCode_eq_none_iff (b : Byte) :
    opOfCode b = none ↔ b ∉ [(0x01 : Byte), 0x02, 0x03, 0x10, 0x11, 0x20, 0x30, 0x31] := by
  have codes : [(0x01 : Byte), 0x02, 0x03, 0x10, 0x11, 0x20, 0x30, 0x31] = allOps.map opCode := rfl
  rw [opOfCode, List.find?_eq_none, codes]
  simp

/-- What a channel answers to an opcode of the map: R89's tests after the first. -/
theorem decode_of_opCode {op : Op} {w : Word} (h : fieldOp w = opCode op) (c : Channel) (data : List Byte) :
    decode c ⟨w, data⟩ =
      if !(opChannels op).contains c then .error .wrongChannel
      else if !opUsesA8 op && fieldA8 w != 0 then .error .nonzeroA8
      else if !opUsesA16 op && fieldA16 w != 0 then .error .nonzeroA16
      else if !opDlenOk op data.length then .error .wrongDlen
      else .ok (instrOf op c (fieldA8 w) (fieldA16 w) data) := by
  simp only [decode, h, opOfCode_opCode]

/-- An opcode of the map is refused exactly when one of R89's later tests fails. -/
theorem decode_error_iff {op : Op} {w : Word} (h : fieldOp w = opCode op) (c : Channel) (data : List Byte) :
    (∃ e, decode c ⟨w, data⟩ = .error e) ↔
      c ∉ opChannels op ∨ (opUsesA8 op = false ∧ fieldA8 w ≠ 0) ∨ (opUsesA16 op = false ∧ fieldA16 w ≠ 0) ∨
        opDlenOk op data.length = false := by
  rw [decode_of_opCode h]
  split_ifs <;> simp_all

/-- Four bytes are the bytes of the value they carry (R63). -/
theorem wordBytes_laneWord {data : List Byte} (h : data.length = 4) : wordBytes (laneWord data) = data := by
  obtain ⟨b0, b1, b2, b3, rfl⟩ := List.length_eq_four.1 h
  exact wordBytes_le32 b0 b1 b2 b3

/-- The command with given operands, an unused one 0, encodes to the descriptor that carries them. -/
theorem encode_instrOf {op : Op} {a8 : Byte} {a16 : Half} {data : List Byte} (h8 : opUsesA8 op = false → a8 = 0)
    (h16 : opUsesA16 op = false → a16 = 0) (hlen : opDlenOk op data.length = true) (c : Channel) :
    encode (instrOf op c a8 a16 data) = ⟨commandWord (opCode op) a8 a16, data⟩ := by
  cases op with
  | csum | extract => rw [h8 rfl, h16 rfl]; rfl
  | build | txSend => rfl
  | rxNextEnv | rxNextFrame =>
    rw [h8 rfl, h16 rfl, List.eq_nil_of_length_eq_zero (eq_of_beq hlen)]
    rfl
  | csrRead =>
    rw [h8 rfl, List.eq_nil_of_length_eq_zero (eq_of_beq hlen)]
    rfl
  | csrWrite => rw [h8 rfl, instrOf, encode, wordBytes_laneWord (eq_of_beq hlen)]

/-- What decode accepts encodes back to the same descriptor. -/
theorem encode_of_decode {c : Channel} {x : Descriptor} {i : Instr} (h : decode c x = .ok i) : encode i = x := by
  obtain ⟨op, hop, -, h8, h16, hlen, rfl⟩ := (decode_ok_iff c x i).1 h
  rw [encode_instrOf h8 h16 hlen, opCode_of_opOfCode hop, commandWord_fields]

end Sys2Proof

namespace Sys2Proof.Machine

/-- An idle channel takes a command that it refuses off its latch and raises IllegalCommand (R90, R266). -/
theorem chanStep_refuses {c : Channel} {s : State} {x : Descriptor} {e : Reject} (idle : (s.chan c).cmd = none)
    (placed : (s.chan c).placed = some x) (refused : decode c x = .error e) :
    chanStep c s = .next (raise c .illegalCommand (unplace c s)) := by
  simp [chanStep, idle, placed, refused]

/-- An idle channel executes the command that it decodes. -/
theorem chanStep_accepts {c : Channel} {s : State} {x : Descriptor} {i : Instr} (idle : (s.chan c).cmd = none)
    (placed : (s.chan c).placed = some x) (decoded : decode c x = .ok i) : chanStep c s = exec i (unplace c s) := by
  simp [chanStep, idle, placed, decoded]

/-- Settles O51: the rule's list is R89's tests opcode by opcode, the reserved values first. -/
theorem decodeRefusals : Obligations.DecodeRefusals := by
  refine ⟨?_, fun c x i h => ⟨decode_channel h, encode_of_decode h⟩, fun c s x e idle placed refused => ?_⟩
  · rintro c w data _ rfl
    cases h : opOfCode (fieldOp w) with
    | none =>
      have refused : decode c ⟨w, data⟩ = .error .undefinedOp := by simp only [decode, h]
      exact iff_of_true ⟨_, refused⟩ (.inl ((opOfCode_eq_none_iff _).1 h))
    | some op =>
      have hop := (opCode_of_opOfCode h).symm
      rw [decode_error_iff hop, hop]
      cases op with
      | csum | build | extract => cases c <;> simp [opChannels, opUsesA8, opUsesA16, opDlenOk, opCode]
      | _ => simp [opChannels, opUsesA8, opUsesA16, opDlenOk, opCode]
  · rw [applyMove, chanStep_refuses idle placed refused]
    simp [raise, complete, unplace, Response.fail, idle]

/-- Settles O53: each string is evaluated. -/
theorem specBytesDecode : Obligations.SpecBytesDecode := by
  unfold Obligations.SpecBytesDecode
  decide

/-- Settles O54: the listed move is the step, and the channel goes on with its command or accepts the placed one. -/
theorem stepRunsDecoded : Obligations.StepRunsDecoded := by
  intro s c ms hms
  rw [step_of_moves hms]
  refine ⟨fun x i idle placed decoded _ => ?_, fun i executing => ?_⟩
  · exact chanStep_accepts (s := { s with moves := ms }) idle placed decoded
  · exact chanStep_executing (s := { s with moves := ms }) c executing

end Sys2Proof.Machine
end

section
/-! PROOFS. What every step keeps of the latches of placed commands and of the closure latches (spec/10_state.md R38, R39,
spec/60_exceptions.md R274); with the rules of the running commands and of the receive datapath, the invariant of the block. -/

namespace Sys2Proof.Machine

/-! ### The placed commands -/

/-- The rule of the placed commands on all three channels. -/
def PlacedRules (s : State) : Prop := PlacedRule s.rxc ∧ PlacedRule s.txc ∧ PlacedRule s.ctlc

theorem placedRule_of_empty {x : Chan} (h : x.placed = none) : PlacedRule x :=
  ⟨by simp [h], fun _ => h⟩

theorem placedRule_of_idle {x : Chan} (wf : x.placed.all Descriptor.wf = true) (idle : x.cmd = none) : PlacedRule x :=
  ⟨wf, by simp [idle]⟩

theorem PlacedRules.chan {s : State} (hs : PlacedRules s) (c : Channel) : PlacedRule (s.chan c) := by
  obtain ⟨hrx, htx, hct⟩ := hs
  cases c with
  | rxc => exact hrx
  | txc => exact htx
  | ctlc => exact hct

theorem PlacedRules.setChan {s : State} {c : Channel} {x : Chan} (hs : PlacedRules s) (hx : PlacedRule x) :
    PlacedRules (s.setChan c x) := by
  obtain ⟨hrx, htx, hct⟩ := hs
  cases c with
  | rxc => exact ⟨hx, htx, hct⟩
  | txc => exact ⟨hrx, hx, hct⟩
  | ctlc => exact ⟨hrx, htx, hx⟩

/-- Completing a command leaves its channel idle and its latch as it was. -/
theorem PlacedRules.complete {s : State} (hs : PlacedRules s) (c : Channel) (r : Response) :
    PlacedRules (complete c r s) :=
  have ⟨wf, _⟩ := hs.chan c
  hs.setChan (placedRule_of_idle wf rfl)

theorem PlacedRules.unplace {s : State} (hs : PlacedRules s) (c : Channel) : PlacedRules (unplace c s) :=
  hs.setChan (placedRule_of_empty rfl)

/-- A command is accepted once it is off its latch. -/
theorem PlacedRules.accept {s : State} (hs : PlacedRules s) (c : Channel) (i : Instr) :
    PlacedRules (accept c i (Machine.unplace c s)) :=
  (hs.unplace c).setChan (placedRule_of_empty (by simp))

theorem Received.placedRules {s1 t : State} (h : Received s1 t) (hs : PlacedRules s1) : PlacedRules t := by
  cases h with
  | goesOn | drops => exact hs
  | completes r => exact PlacedRules.complete (by exact hs) .rxc r

theorem recvStep_placedRules (i : Instr) {s : State} (hs : PlacedRules s) : PlacedRules (recvStep (pullDone i) s) := by
  obtain ⟨s1, rfl | ⟨b, hb⟩, h⟩ := recvStep_received i s
  · exact h.placedRules hs
  · rw [take_rest hb] at h
    exact h.placedRules hs

theorem softReset_placedRules {s : State} (hs : PlacedRules s) : PlacedRules (softReset s) := by
  obtain ⟨⟨hrx, -⟩, ⟨htx, -⟩, ⟨hct, -⟩⟩ := hs
  rw [softReset_eq]
  exact ⟨placedRule_of_idle hrx rfl, placedRule_of_idle htx rfl, placedRule_of_idle hct rfl⟩

theorem Transition.placedRules {s t : State} {m : Move} (h : Transition s m t) (hs : PlacedRules s) : PlacedRules t := by
  cases h with
  | @refuse c => exact (hs.unplace c).complete c _
  | refuseOffset => exact (hs.unplace .ctlc).complete .ctlc _
  | @answer c x i r => exact (hs.accept c i).complete c r
  | @csrWrite x off v =>
    have ha := hs.accept .ctlc (.csrWrite off v)
    rcases writeEffect_cases off v (accept .ctlc (.csrWrite off v) (unplace .ctlc s)) with
      ⟨-, -, k, h⟩ | ⟨k, st, cnt, h⟩ <;> rw [h]
    · exact (softReset_placedRules (by exact ha)).complete _ _
    · exact PlacedRules.complete (by exact ha) _ _
  | @pullAccept x i =>
    have ha := hs.accept .rxc i
    unfold Machine.pullAccept
    cases (unplace .rxc s).rxClosed
    · exact ha
    · exact ha.complete .rxc _
  | receive => exact recvStep_placedRules _ hs
  | @sendAccept x rid topic data =>
    have ha := hs.accept .txc (.txSend rid topic data)
    rcases sendAccept_cases rid topic data (accept .txc (.txSend rid topic data) (unplace .txc s)) with
      ⟨-, h⟩ | ⟨e, -, -, h⟩ | ⟨e, -, -, h⟩ <;> rw [h]
    · exact PlacedRules.complete (by exact ha) _ _
    · exact ha.complete .txc _
    · exact ha
  | sendWait =>
    rcases sendWait_cases s with ⟨-, h⟩ | ⟨-, h⟩ <;> rw [h]
    · exact PlacedRules.complete (by exact hs) _ _
    · exact hs
  | timeout => exact hs.complete .rxc _
  | place idle _ wf => exact hs.setChan (placedRule_of_idle wf idle)
  | snkAccept => exact PlacedRules.complete (by exact hs) _ _
  | powerOn => exact softReset_placedRules hs
  | stutter | srcByte | srcClose | snkClose => exact hs

/-! ### The closure latches -/

/-- Completing a command on a channel ends what a latched closure must not find there. -/
theorem ClosureRule.setChan_idle {s : State} {c : Channel} {x : Chan} (hs : ClosureRule s) (hx : x.cmd = none) :
    ClosureRule (s.setChan c x) := by
  obtain ⟨hrx, htx⟩ := hs
  cases c with
  | rxc =>
    refine ⟨fun latched => ?_, htx⟩
    obtain ⟨closed, hq, hreplay, hst, -⟩ := hrx latched
    exact ⟨closed, hq, hreplay, hst, hx⟩
  | txc => exact ⟨hrx, fun latched => ⟨(htx latched).1, hx⟩⟩
  | ctlc => exact ⟨hrx, htx⟩

theorem ClosureRule.complete {s : State} (hs : ClosureRule s) (c : Channel) (r : Response) : ClosureRule (complete c r s) :=
  hs.setChan_idle rfl

theorem closureRule_of_unlatched {s : State} (hrx : s.rxClosed = false) (htx : s.txClosed = false) : ClosureRule s :=
  ⟨by simp [hrx], by simp [htx]⟩

/-- A byte leaves the closure latch of the receive path. -/
theorem recvByte_rxClosed (i : Instr) (b : Byte) (s : State) : (recvByte (pullDone i) b s).rxClosed = s.rxClosed := by
  rcases recvByte_outcome (pullDone i) b s with ⟨rx, h⟩ | h | ⟨e, h⟩ <;> rw [h]
  · rcases dropByte_cases s with ⟨-, h⟩ | ⟨-, h⟩ <;> simp [h]
  · obtain ⟨r, rx, sticky, cnt, -, hdone⟩ := pullDone_completes i s.rx.rid e
      { s with rx := s.rx.toHunt, cnt := { s.cnt with env := s.cnt.env + 1 } }
    rw [hdone, complete_rxClosed]

theorem take_rxClosed {s s1 : State} {b : Byte} (h : s.take = some (b, s1)) : s1.rxClosed = s.rxClosed := by
  rw [take_rest h]

theorem Received.txClosed {s1 t : State} (h : Received s1 t) : t.txClosed = s1.txClosed := by
  cases h <;> simp

theorem recvStep_txClosed (i : Instr) (s : State) : (recvStep (pullDone i) s).txClosed = s.txClosed := by
  obtain ⟨s1, rfl | ⟨b, hb⟩, h⟩ := recvStep_received i s
  · exact h.txClosed
  · rw [h.txClosed, take_rest hb]

/-- A receive step latches a closure only where it finds the source closed and both queues empty, and then RXC is idle in HUNT. -/
theorem recvStep_rxClosed (i : Instr) (s : State) :
    (recvStep (pullDone i) s).rxClosed = s.rxClosed ∨
      (s.take = none ∧ s.env.srcClosed = true ∧ recvStep (pullDone i) s = observeClosure s) := by
  rcases recvStep_cases (pullDone i) s with ⟨b, s1, hb, h⟩ | ⟨hnone, closed, h⟩ | ⟨-, -, h⟩ <;> rw [h]
  · exact .inl ((recvByte_rxClosed i b s1).trans (take_rxClosed hb))
  · exact .inr ⟨hnone, closed, rfl⟩
  · exact .inl rfl

theorem recvStep_closureRule {i : Instr} {s : State} (hs : ClosureRule s) (pending : s.rxc.cmd = some i) :
    ClosureRule (recvStep (pullDone i) s) := by
  obtain ⟨hrx, htx⟩ := hs
  have unlatched : s.rxClosed = false := by
    rw [Bool.eq_false_iff]
    intro latched
    obtain ⟨-, -, -, -, idle⟩ := hrx latched
    cases pending.symm.trans idle
  rcases recvStep_rxClosed i s with h | ⟨hnone, closed, h⟩
  · refine ⟨by simp [h, unlatched], ?_⟩
    obtain ⟨htxc, -⟩ := recvStep_sameSend i s
    rw [recvStep_txClosed, htxc]
    rcases recvStep_env i s with henv | ⟨b, q, -, henv⟩ <;> rw [henv] <;> exact htx
  · obtain ⟨hreplay, hq⟩ := (take_none_iff s).1 hnone
    rw [h]
    exact ⟨fun _ => ⟨closed, hq, hreplay, rfl, rfl⟩, htx⟩

theorem Transition.closureRule {s t : State} {m : Move} (h : Transition s m t) (hs : ClosureRule s) : ClosureRule t := by
  have ⟨hrx, htx⟩ := hs
  cases h with
  | refuse | refuseOffset =>
    rw [raise, Machine.complete, unplace, setChan_setChan]
    exact hs.setChan_idle rfl
  | @answer c x i r =>
    rw [complete_accept, unplace, setChan_setChan]
    exact hs.setChan_idle rfl
  | @csrWrite x off v =>
    rcases writeEffect_cases off v (accept .ctlc (.csrWrite off v) (unplace .ctlc s)) with
      ⟨-, -, k, h⟩ | ⟨k, st, cnt, h⟩ <;> rw [h]
    · rw [softReset_eq]
      exact closureRule_of_unlatched rfl rfl
    · exact hs
  | @pullAccept x i =>
    unfold Machine.pullAccept
    cases hc : (unplace .rxc s).rxClosed with
    | false => exact ⟨fun latched => absurd (hc.symm.trans latched) Bool.false_ne_true, htx⟩
    | true =>
      rw [if_pos rfl, raise, complete_accept, unplace, setChan_setChan]
      exact hs.setChan_idle rfl
  | receive pending => exact recvStep_closureRule hs pending
  | @sendAccept x rid topic data =>
    rcases sendAccept_cases rid topic data (accept .txc (.txSend rid topic data) (unplace .txc s)) with
      ⟨-, h⟩ | ⟨e, -, -, h⟩ | ⟨e, -, unlatched, h⟩ <;> rw [h]
    · exact ⟨hrx, fun latched => ⟨(htx latched).1, rfl⟩⟩
    · exact ⟨hrx, fun latched => ⟨(htx latched).1, rfl⟩⟩
    · exact ⟨hrx, fun latched => absurd (unlatched.symm.trans latched) Bool.false_ne_true⟩
  | sendWait =>
    rcases sendWait_cases s with ⟨closed, h⟩ | ⟨-, h⟩ <;> rw [h]
    · exact ⟨hrx, fun _ => ⟨closed, rfl⟩⟩
    · exact hs
  | timeout => exact hs.complete .rxc _
  | place idle _ wf => exact hs.setChan_idle idle
  | srcByte isOpen =>
    refine ⟨fun latched => ?_, htx⟩
    obtain ⟨closed, -⟩ := hrx latched
    cases isOpen.symm.trans closed
  | srcClose => exact ⟨fun latched => ⟨rfl, (hrx latched).2⟩, htx⟩
  | snkAccept => exact ClosureRule.complete (by exact hs) .txc _
  | snkClose => exact ⟨hrx, fun latched => ⟨rfl, (htx latched).2⟩⟩
  | powerOn =>
    rw [powerOnReset, softReset_eq]
    exact closureRule_of_unlatched rfl rfl
  | stutter => exact hs

/-! ### The invariant -/

theorem blockInv_iff (s : State) :
    BlockInv s ↔ ReceiveRule s.rx ∧ CommandRule s ∧ PlacedRules s ∧ ClosureRule s := by
  simp only [BlockInv, ReceiveRule, PlacedRules, and_assoc]

/-- Drawing a move touches nothing the invariant speaks of. -/
theorem draw_blockInv {s : State} (h : BlockInv s) : BlockInv s.draw.2 := by
  rcases draw_cases s with ⟨m, ms, -, hd⟩ | ⟨-, hd⟩ <;> rw [hd] <;> exact h

/-- Settles O56: each part of the invariant is kept by the step's transition. -/
theorem stepKeepsInvariant : Obligations.StepKeepsInvariant := by
  intro s t hinv hstep
  have h := step_transition hinv.commandRule hstep
  obtain ⟨hrx, hcmd, hplaced, hclosed⟩ := (blockInv_iff _).1 (draw_blockInv hinv)
  exact (blockInv_iff t).2 ⟨h.receiveRule hrx, h.commandRule hcmd, h.placedRules hplaced, h.closureRule hclosed⟩

/-- Settles O57: every field of the invariant is at its reset value. -/
theorem resetInvariant : Obligations.ResetInvariant :=
  (blockInv_iff _).2 ⟨reset_receiveRule, ⟨rfl, rfl, rfl, fun _ => rfl⟩,
    ⟨placedRule_of_empty rfl, placedRule_of_empty rfl, placedRule_of_empty rfl⟩, closureRule_of_unlatched rfl rfl⟩

end Sys2Proof.Machine
end

section
/-! PROOFS. The closures (spec/60_exceptions.md R274): every step but a reset keeps a latched closure and latches at most one. -/

namespace Sys2Proof.Machine

/-- The move `m` resets the block (R290): power-on reset, or CTLC writes CTRL with bit 31 set. -/
def Resets (s : State) (m : Move) : Prop :=
  m = .powerOn ∨
    (m = .chan .ctlc ∧ ∃ x v, s.ctlc.placed = some x ∧ decode .ctlc x = .ok (.csrWrite 0 v) ∧ v.getLsbD 31 = true)

theorem resetsNext_of_resets {s : State} (h : Resets s.draw.2 s.draw.1) : s.resetsNext := by
  rw [Resets, draw_ctlc] at h
  exact h

/-- A CSR write that is no soft reset leaves all but the control and event registers. -/
theorem csrWrite_cases {s : State} {x : Descriptor} {off : Half} {v : Word} (placed : s.ctlc.placed = some x)
    (decoded : decode .ctlc x = .ok (.csrWrite off v)) (u : State) :
    Resets s (.chan .ctlc) ∨
      ∃ ctrl sticky cnt, writeEffect off v u = { u with ctrl := ctrl, sticky := sticky, cnt := cnt } := by
  rcases writeEffect_cases off v u with ⟨rfl, hv, -⟩ | h
  · exact .inl (.inr ⟨rfl, x, v, placed, decoded, hv⟩)
  · exact .inr h

/-! ### The latches -/

/-- From `s` to `t` at most one path's closure is latched, and none is cleared. -/
def LatchesOne (s t : State) : Prop :=
  (t.rxClosed = s.rxClosed ∧ (t.txClosed = s.txClosed ∨ t.txClosed = true)) ∨
    (t.txClosed = s.txClosed ∧ t.rxClosed = true)

theorem latchesOne_of_eq {s t : State} (hrx : t.rxClosed = s.rxClosed) (htx : t.txClosed = s.txClosed) : LatchesOne s t :=
  .inl ⟨hrx, .inl htx⟩

@[simp] theorem pullAccept_rxClosed (i : Instr) (s : State) : (pullAccept i s).rxClosed = s.rxClosed := by
  simp only [pullAccept]
  split <;> simp

@[simp] theorem pullAccept_txClosed (i : Instr) (s : State) : (pullAccept i s).txClosed = s.txClosed := by
  simp only [pullAccept]
  split <;> simp

@[simp] theorem sendAccept_rxClosed (rid : Byte) (topic : Half) (data : List Byte) (s : State) :
    (sendAccept rid topic data s).rxClosed = s.rxClosed := by
  rcases sendAccept_cases rid topic data s with ⟨-, h⟩ | ⟨e, -, -, h⟩ | ⟨e, -, -, h⟩ <;> simp [h]

@[simp] theorem sendAccept_txClosed (rid : Byte) (topic : Half) (data : List Byte) (s : State) :
    (sendAccept rid topic data s).txClosed = s.txClosed := by
  rcases sendAccept_cases rid topic data s with ⟨-, h⟩ | ⟨e, -, -, h⟩ | ⟨e, -, -, h⟩ <;> simp [h]

theorem Transition.latches {s t : State} {m : Move} (h : Transition s m t) : Resets s m ∨ LatchesOne s t := by
  cases h with
  | powerOn => exact .inl (.inl rfl)
  | @csrWrite x off v idle placed decoded =>
    rcases csrWrite_cases placed decoded (accept .ctlc (.csrWrite off v) (unplace .ctlc s)) with
      h | ⟨ctrl, sticky, cnt, h⟩
    · exact .inl h
    · rw [h]
      exact .inr (latchesOne_of_eq rfl rfl)
  | @receive i =>
    have htx := recvStep_txClosed i s
    rcases recvStep_rxClosed i s with hrx | ⟨-, -, h⟩
    · exact .inr (latchesOne_of_eq hrx htx)
    · exact .inr (.inr ⟨htx, congrArg State.rxClosed h⟩)
  | sendWait =>
    rcases sendWait_cases s with ⟨-, h⟩ | ⟨-, h⟩ <;> rw [h]
    · exact .inr (.inl ⟨rfl, .inr rfl⟩)
    · exact .inr (latchesOne_of_eq rfl rfl)
  | _ => exact .inr (latchesOne_of_eq (by simp [srcShut, snkShut]) (by simp [srcShut, snkShut]))

/-- Settles O48: the step's transition latches at most one closure and clears none. -/
theorem closureLatched : Obligations.ClosureLatched := by
  intro s t hinv hstep noReset
  have h := (step_transition hinv.commandRule hstep).latches.resolve_left (mt resetsNext_of_resets noReset)
  rw [LatchesOne, draw_rxClosed, draw_txClosed] at h
  rcases h with ⟨hrx, htx⟩ | ⟨htx, hrx⟩
  · exact ⟨fun latched => hrx.trans latched, fun latched => htx.elim (·.trans latched) id, .inl hrx⟩
  · exact ⟨fun _ => hrx, fun latched => htx.trans latched, .inr htx⟩

/-! ### TX_SEND -/

/-- A command accepted and completed in one step leaves its channel answered (log entry 9). -/
theorem complete_accept_eq_answered (c : Channel) (i : Instr) (r : Response) (s : State) :
    complete c r (accept c i s) = s.answered c r :=
  complete_accept s c i r

theorem build_some {topic : Half} {P : List Byte} (h : P.length ≤ 65527) (rid : Byte) :
    build topic rid P = some (envelope topic rid P) :=
  (build_eq_some_iff topic rid P _).2 ⟨h, rfl⟩

theorem build_none {P : List Byte} (h : 65527 < P.length) (topic : Half) (rid : Byte) : build topic rid P = none :=
  (build_eq_none_iff topic rid P).2 h

/-- R145: a payload that fits is built and waits for the sink. -/
theorem sendAccept_fits {data : List Byte} (hlen : data.length ≤ 65527) (rid : Byte) (topic : Half) {s : State}
    (unlatched : s.txClosed = false) :
    sendAccept rid topic data s = { s with txEnv := envelope topic rid data } := by
  simp [sendAccept, build_some hlen, unlatched]

/-- R148: while the closure is latched a payload that fits is answered with SinkClosed. -/
theorem sendAccept_latched {data : List Byte} (hlen : data.length ≤ 65527) (rid : Byte) (topic : Half) {s : State}
    (latched : s.txClosed = true) : sendAccept rid topic data s = raise .txc .sinkClosed s := by
  simp [sendAccept, build_some hlen, latched]

/-- R149: a payload that does not fit is counted and answered with ValueTooLarge. -/
theorem sendAccept_oversized {data : List Byte} (hlen : 65527 < data.length) (rid : Byte) (topic : Half) (s : State) :
    sendAccept rid topic data s
      = raise .txc .valueTooLarge { s with cnt := { s.cnt with txTooLarge := s.cnt.txTooLarge + 1 } } := by
  simp [sendAccept, build_none hlen]

/-- Settles O11: a waiting send observes the closure, `closureLatched` keeps it, and while it lasts it answers a send at its
acceptance. -/
theorem sinkClosureReported : Obligations.SinkClosureReported := by
  refine ⟨fun s rid topic data waiting closed => ?_, fun s t hinv latched noReset hstep => ?_,
    fun s rid topic data idle latched hlen => ?_⟩
  · rw [execTxSend_waiting rid topic data s waiting, sendWait, if_pos closed]
    rfl
  · exact (closureLatched s t hinv hstep noReset).2.1 latched
  · rw [execTxSend_idle rid topic data s idle, sendAccept_latched hlen]
    · rfl
    · exact latched

/-- Settles O9: the envelope is built at the acceptance, and `sinkAcceptsWhole` is the sink's accepting step. -/
theorem sendBuildsThenCompletes : Obligations.SendBuildsThenCompletes := by
  intro rid topic data s idle isOpen hlen
  refine ⟨_, _, build_some hlen rid, ?_, rfl, fun snkOpen => ?_⟩
  · rw [execTxSend_idle rid topic data s idle, sendAccept_fits hlen]
    · rfl
    · exact isOpen
  · exact (sinkAcceptsWhole _ rid topic data).1 rfl snkOpen

/-- Settles O8: no envelope is built of so long a lane, whatever DLEN mod 2^16 would say. -/
theorem oversizedPayloadRefused : Obligations.OversizedPayloadRefused := by
  intro c rid topic data s hlen
  refine ⟨fun idle => ?_, fun idle => ?_⟩
  · rw [execBuild_idle c rid topic data s idle, buildResponse, build_none hlen, complete_accept_eq_answered]
    rfl
  · rw [execTxSend_idle rid topic data s idle, sendAccept_oversized hlen]
    rfl

/-! ### The pure commands -/

/-- An opcode that uses neither A8 nor A16, allowed on every channel with every lane, decodes exactly where both are 0. -/
theorem decode_pure {op : Op} {w : Word} (h : fieldOp w = opCode op) {c : Channel} {data : List Byte}
    (onAll : c ∈ opChannels op) (no8 : opUsesA8 op = false) (no16 : opUsesA16 op = false)
    (anyLane : opDlenOk op data.length = true) :
    (fieldA8 w = 0 ∧ fieldA16 w = 0 → decode c ⟨w, data⟩ = .ok (instrOf op c (fieldA8 w) (fieldA16 w) data)) ∧
      (¬(fieldA8 w = 0 ∧ fieldA16 w = 0) → ∃ e, decode c ⟨w, data⟩ = .error e) := by
  constructor
  · rintro ⟨h8, h16⟩
    rw [decode_of_opCode h]
    simp [onAll, anyLane, h8, h16]
  · intro hne
    rw [decode_error_iff h]
    rcases not_and_or.1 hne with h8 | h16
    · exact .inr (.inl ⟨no8, h8⟩)
    · exact .inr (.inr (.inl ⟨no16, h16⟩))

theorem mem_allChannels (c : Channel) : c ∈ [Channel.rxc, .txc, .ctlc] := by
  cases c <;> decide

/-- Settles O4: the command completes in its acceptance step, and R89's tests of its two unused operands decide the decode. -/
theorem csumCompletes : Obligations.CsumCompletes := by
  refine ⟨fun c data s idle => ?_, fun c w data hop => ?_⟩
  · rw [execCsum_idle c data s idle, complete_accept_eq_answered]
    rfl
  · exact decode_pure (op := .csum) hop (mem_allChannels c) rfl rfl rfl

/-- A frame that is not OK has neither topic nor payload (R160). -/
theorem extract_reject {f : List Byte} {strict : Bool} (h : (extract f strict).status ≠ .ok) :
    (extract f strict).topic = 0 ∧ (extract f strict).payload = [] := by
  rcases extract_cases f strict with ⟨-, he⟩ | ⟨-, -, he⟩ | ⟨-, -, -, -, he⟩ | ⟨-, -, -, -, he⟩ | ⟨-, -, -, -, -, he⟩ |
    ⟨-, -, -, he⟩ <;> rw [he] at h ⊢
  case inr.inr.inr.inr.inr => exact absurd rfl h
  all_goals exact ⟨rfl, rfl⟩

/-- Settles O19: the command answers the extractor's verdict in its acceptance step; a failing one carries no topic and no payload. -/
theorem extractCompletes : Obligations.ExtractCompletes := by
  refine ⟨?_, fun c w data hop => decode_pure (op := .extract) hop (mem_allChannels c) rfl rfl rfl⟩
  rintro c data s _ idle rfl
  rw [execExtract_answered idle]
  split_ifs with h
  · rw [verdictResponse, h]
  · obtain ⟨htopic, hpayload⟩ := extract_reject h
    rw [verdictResponse, htopic, hpayload]
    rfl

/-- Settles O7: BUILD answers what `build` gives, and uses both operands. -/
theorem buildCompletes : Obligations.BuildCompletes := by
  refine ⟨fun c rid topic data s idle => ⟨fun hlen => ?_, fun hlen => ?_⟩, fun c w data hop => ?_⟩
  · refine ⟨_, build_some hlen rid, envelope_length topic rid data, ?_⟩
    rw [execBuild_idle c rid topic data s idle, buildResponse, build_some hlen, complete_accept_eq_answered]
    rfl
  · exact (oversizedPayloadRefused c rid topic data s hlen).1 idle
  · rw [decode_of_opCode (op := .build) hop]
    cases c <;> rfl

end Sys2Proof.Machine
end

section
/-! PROOFS. Legacy extraction (spec/42_frame_extractor.md R168): what strict mode decides without a checksum both modes decide alike. -/

namespace Sys2Proof.Machine

/-- Past the markers legacy mode tests the length alone, and shows both checksums in the flags. -/
theorem extract_legacy {f : List Byte} (long : 8 ≤ f.length) (markers : badMarkers f = false) :
    extract f false =
      if f.length ≠ msgLength f + 8 then .fail .badLength (cs1Bad f) false
      else ⟨.ok, cs1Bad f, cs2Bad f, le16 (byteAt f 5) (byteAt f 6), slice f 7 (7 + msgLength f)⟩ := by
  simp [extract, Config.innerOverhead, long.not_gt, markers]

theorem extract_of_short {f : List Byte} (short : f.length < 8) (strict : Bool) :
    extract f strict = .fail .badLength false false := by
  simp [extract, Config.innerOverhead, short]

theorem extract_legacy_status (f : List Byte) : (extract f false).status ≠ .checksumMismatch := by
  rcases extract_cases f false with ⟨-, h⟩ | ⟨-, -, h⟩ | ⟨-, -, -, strict, -⟩ | ⟨-, -, -, -, h⟩ | ⟨-, -, -, -, strict, -⟩ |
    ⟨-, -, -, h⟩
  case inr.inr.inl | inr.inr.inr.inr.inl => exact absurd strict Bool.false_ne_true
  all_goals simp [h]

/-- Where no checksum test stops strict mode, legacy mode passes the same tests. -/
theorem extract_legacy_eq_strict {f : List Byte} (h : (extract f true).status ≠ .checksumMismatch) :
    extract f false = extract f true := by
  rcases extract_cases f true with ⟨short, -⟩ | ⟨long, bad, -⟩ | ⟨-, -, -, -, he⟩ | ⟨long, markers, clear, hlen, he⟩ |
    ⟨-, -, -, -, -, he⟩ | ⟨hlen, markers, clear, he⟩
  · rw [extract_of_short short, extract_of_short short]
  · rw [extract_of_badMarkers long bad, extract_of_badMarkers long bad]
  · exact absurd (congrArg Verdict.status he) h
  · rw [extract_legacy long markers, if_pos hlen, he]
  · exact absurd (congrArg Verdict.status he) h
  · rw [extract_legacy (by omega) markers, if_neg (not_not.2 hlen), he]

/-- Where a checksum test stops strict mode, legacy mode goes on and shows it. -/
theorem extract_legacy_flag {f : List Byte} (h : (extract f true).status = .checksumMismatch) :
    (extract f false).cs1Bad = true ∨ (extract f false).cs2Bad = true := by
  rcases extract_cases f true with ⟨-, he⟩ | ⟨-, -, he⟩ | ⟨long, markers, bad, -, -⟩ | ⟨-, -, -, -, he⟩ |
    ⟨hlen, markers, -, bad, -, -⟩ | ⟨-, -, -, he⟩
  case inr.inr.inl =>
    left
    rw [extract_legacy long markers]
    split_ifs <;> exact bad
  case inr.inr.inr.inr.inl =>
    right
    rw [extract_legacy (by omega) markers, if_neg (not_not.2 hlen)]
    exact bad
  all_goals simp [he] at h

/-- Settles O16: the exits of the two modes compared. -/
theorem legacyExtraction : Obligations.LegacyExtraction := fun f =>
  ⟨extract_legacy_status f, extract_legacy_eq_strict, extract_legacy_flag⟩

end Sys2Proof.Machine
end

section
/-! PROOFS. What ends a held pull (spec/43_stream_reader.md R192, R193), and what fills the replay queue (spec/10_state.md R28). -/

namespace Sys2Proof.Machine

/-! ### The held pull -/

/-- While RXC is busy, only its own step, a Timeout draw and the two resets touch it. -/
theorem Transition.rxc {s t : State} {m : Move} {i : Instr} (h : Transition s m t) (pending : s.rxc.cmd = some i) :
    t.rxc = s.rxc ∨ m = .chan .rxc ∨ (m = .timeout ∧ Config.timeoutEnabled = true) ∨ Resets s m := by
  cases h with
  | receive | pullAccept => exact .inr (.inl rfl)
  | timeout enabled => exact .inr (.inr (.inl ⟨rfl, enabled⟩))
  | powerOn => exact .inr (.inr (.inr (.inl rfl)))
  | @csrWrite x off v idle placed decoded =>
    rcases csrWrite_cases placed decoded (accept .ctlc (.csrWrite off v) (unplace .ctlc s)) with
      h | ⟨ctrl, sticky, cnt, h⟩
    · exact .inr (.inr (.inr h))
    · exact .inl (by rw [h]; rfl)
  | refuse idle =>
    have hc := rxc_ne_of_idle pending idle
    exact .inl ((complete_chan_ne _ _ hc).trans (unplace_chan_ne s hc))
  | answer idle =>
    have hc := rxc_ne_of_idle pending idle
    exact .inl ((complete_chan_ne _ _ hc).trans ((accept_chan_ne _ _ hc).trans (unplace_chan_ne s hc)))
  | place idle => exact .inl (chan_setChan_ne s _ (rxc_ne_of_idle pending idle))
  | sendAccept => exact .inl (sendAccept_rxc _ _ _ _)
  | sendWait => exact .inl (sendWait_rxc s)
  | stutter | refuseOffset | srcByte | srcClose | snkAccept | snkClose => exact .inl rfl

/-- Settles O31: RXC's own step holds, and no other step but the Timeout draw and a reset touches RXC or its datapath. -/
theorem heldPullWaits : Obligations.HeldPullWaits := by
  intro i s hi pending hreplay hq isOpen
  have pull : isPull i = true := (isPull_iff i).2 hi
  have holds : s.pullHolds = true :=
    (pullHolds_iff s).2 ⟨by simp [State.pullPending, pending, pull], hreplay, hq, isOpen⟩
  refine ⟨by rw [exec_pull_pending pull pending, recvStep_held holds], fun t hinv hstep => ?_⟩
  by_cases hm : s.draw.1 = .chan .rxc
  · have held : step s = .next s.draw.2 := by
      rw [step, hm]
      refine chanStep_pull_held (i := i) ?_ (by rw [draw_rxc, pending])
      rw [pullHolds_iff, draw_pullPending, draw_rx, draw_env]
      exact (pullHolds_iff s).1 holds
    cases held.symm.trans hstep
    exact .inl ⟨draw_rxc s, draw_rx s⟩
  · have h := step_transition hinv.commandRule hstep
    have hrx := h.rx
    have hrxc := h.rxc (i := i) (by rw [draw_rxc, pending])
    rw [draw_rx] at hrx
    rw [draw_rxc] at hrxc
    rcases hrxc with hrxc | hc | htimeout | hreset
    · rcases hrx with hrx | hc | hpower | hwrite
      · exact .inl ⟨hrxc, hrx⟩
      · exact absurd hc hm
      · exact .inr (.inr (resetsNext_of_resets (.inl hpower)))
      · exact .inr (.inr (resetsNext_of_resets (.inr hwrite)))
    · exact absurd hc hm
    · exact .inr (.inl htimeout)
    · exact .inr (.inr (resetsNext_of_resets hreset))

/-! ### The replay queue without rescan -/

/-- With RXC's snapshot of RESCAN 0 and nothing to replay there is no rescan. -/
def NoRescan (s : State) : Prop := s.rxc.cfg.rescan = false ∧ s.rx.replay = []

/-- A pull whose snapshot of RESCAN is 0 puts nothing back. -/
theorem pullDone_replay {i : Instr} {s : State} (off : s.rxc.cfg.rescan = false) (rid : Byte) (e : List Byte) :
    (pullDone i rid e s).rx.replay = s.rx.replay := by
  cases i with
  | rxNextFrame => simp [pullDone, frameDone_noRescan off]
  | _ => simp [pullDone, envDone]

theorem recvByte_replay {i : Instr} {s : State} (off : s.rxc.cfg.rescan = false) (b : Byte) :
    (recvByte (pullDone i) b s).rx.replay = s.rx.replay := by
  rcases recvByte_cases (pullDone i) b s with ⟨-, -, h⟩ | ⟨-, -, h⟩ | ⟨-, h⟩ | ⟨-, h⟩ | ⟨-, -, h⟩ | ⟨-, -, h⟩ | ⟨-, -, h⟩ |
    ⟨-, -, h⟩ <;> rw [h]
  case inr.inl => exact dropByte_replay s
  case inr.inr.inr.inr.inr.inl | inr.inr.inr.inr.inr.inr.inr => exact pullDone_replay (by exact off) _ _

theorem Received.cfg {s1 t : State} (h : Received s1 t) : t.rxc.cfg = s1.rxc.cfg := by
  cases h <;> rfl

theorem recvStep_cfg (i : Instr) (s : State) : (recvStep (pullDone i) s).rxc.cfg = s.rxc.cfg := by
  obtain ⟨s1, rfl | ⟨b, hb⟩, h⟩ := recvStep_received i s
  · exact h.cfg
  · rw [h.cfg, take_rxc hb]

theorem recvStep_noRescan {i : Instr} {s : State} (hs : NoRescan s) : NoRescan (recvStep (pullDone i) s) := by
  obtain ⟨off, hreplay⟩ := hs
  refine ⟨(congrArg _ (recvStep_cfg i s)).trans off, ?_⟩
  rcases recvStep_cases (pullDone i) s with ⟨b, s1, hb, h⟩ | ⟨-, -, h⟩ | ⟨-, -, h⟩ <;> rw [h]
  · rw [recvByte_replay (by rw [take_rxc hb, off])]
    obtain ⟨r, hrx, hr | ⟨rfl, -⟩⟩ := take_rx hb
    · cases hreplay.symm.trans hr
    · rw [hrx]
  · exact hreplay
  · exact hreplay

/-- What is accepted while RESCAN is 0 samples it so; only an acceptance on RXC writes its snapshot. -/
theorem Transition.noRescan {s t : State} {m : Move} (h : Transition s m t) (hctrl : s.ctrl.rescan = false)
    (hs : NoRescan s) : NoRescan t := by
  have ⟨off, hreplay⟩ := hs
  cases h with
  | receive => exact recvStep_noRescan hs
  | pullAccept =>
    refine ⟨?_, by rw [pullAccept_rx, unplace_rx, hreplay]⟩
    simp only [Machine.pullAccept]
    split <;> exact hctrl
  | @refuse c => cases c <;> exact hs
  | @answer c =>
    cases c with
    | rxc => exact ⟨hctrl, hreplay⟩
    | txc | ctlc => exact hs
  | @csrWrite x off' v =>
    rcases writeEffect_cases off' v (accept .ctlc (.csrWrite off' v) (unplace .ctlc s)) with
      ⟨-, -, k, h⟩ | ⟨k, st, cnt, h⟩ <;> rw [h]
    · rw [softReset_eq]
      exact ⟨off, rfl⟩
    · exact hs
  | sendAccept => exact ⟨by rw [sendAccept_rxc]; exact off, by rw [sendAccept_rx]; exact hreplay⟩
  | sendWait => exact ⟨by rw [sendWait_rxc]; exact off, by rw [sendWait_rx]; exact hreplay⟩
  | @place c => cases c <;> exact hs
  | powerOn =>
    rw [powerOnReset, softReset_eq]
    exact ⟨off, rfl⟩
  | stutter | refuseOffset | timeout | srcByte | srcClose | snkAccept | snkClose => exact hs

/-- Settles O39: the step's transition keeps the snapshot's 0 and the empty queue. -/
theorem noRescanNoReplay : Obligations.NoRescanNoReplay := by
  intro s t hinv hctrl off hreplay hstep
  refine (step_transition hinv.commandRule hstep).noRescan ?_ ?_
  · rw [draw_ctrl, hctrl]
  · exact ⟨by rw [draw_rxc, off], by rw [draw_rx, hreplay]⟩

end Sys2Proof.Machine
end

section
/-! PROOFS. What a running command does not look at (spec/43_stream_reader.md R205, spec/44_control.md R249): the receive step of a
byte commutes with any change of the environment and of the control registers. -/

namespace Sys2Proof.Machine

/-- `s` with other control registers and another environment. -/
def State.amid (s : State) (k : Cfg) (e : Env) : State := { s with ctrl := k, env := e }

theorem dropByte_amid (s : State) (k : Cfg) (e : Env) : dropByte (s.amid k e) = (dropByte s).amid k e := by
  rcases dropByte_cases s with ⟨below, h⟩ | ⟨reached, h⟩ <;> rw [h]
  · exact if_neg below
  · exact if_pos reached

theorem pullDone_amid (i : Instr) (rid : Byte) (p : List Byte) (s : State) (k : Cfg) (e : Env) :
    pullDone i rid p (s.amid k e) = (pullDone i rid p s).amid k e := by
  cases i <;> rfl

/-- A taken byte is received alike whatever the environment and the control registers hold. -/
theorem recvByte_amid (i : Instr) (b : Byte) (s : State) (k : Cfg) (e : Env) :
    recvByte (pullDone i) b (s.amid k e) = (recvByte (pullDone i) b s).amid k e := by
  rcases recvByte_cases (pullDone i) b s with ⟨hst, rfl, h⟩ | ⟨hst, hb, h⟩ | ⟨hst, h⟩ | ⟨hst, h⟩ | ⟨hst, hlen, h⟩ |
    ⟨hst, hlen, h⟩ | ⟨hst, hlen, h⟩ | ⟨hst, hlen, h⟩ <;> rw [h]
  · exact recvByte_sync _ (s.amid k e) hst
  · rw [← dropByte_amid]
    exact recvByte_drop _ b (s.amid k e) hst hb
  · exact recvByte_hdrId _ b (s.amid k e) hst
  · exact recvByte_hdrLenLo _ b (s.amid k e) hst
  · exact recvByte_hdrLenHi _ b (s.amid k e) hst hlen
  · rw [← pullDone_amid]
    exact recvByte_empty _ b (s.amid k e) hst hlen
  · exact recvByte_payload _ b (s.amid k e) hst hlen
  · rw [← pullDone_amid]
    exact recvByte_last _ b (s.amid k e) hst hlen

/-! ### A delivery -/

/-- A byte delivered behind the one that is taken does not change what is taken. -/
theorem take_srcDeliver {s s1 : State} {b0 : Byte} (h : s.take = some (b0, s1)) (b : Byte) :
    (srcDeliver b s).take = some (b0, srcDeliver b s1) := by
  rcases (take_some_iff _ _ _).1 h with ⟨r, hr, rfl⟩ | ⟨hr, q, hq, rfl⟩ <;> unfold srcDeliver <;> cases s.env.srcClosed
  · exact (take_some_iff _ _ _).2 (.inl ⟨r, hr, rfl⟩)
  · exact (take_some_iff _ _ _).2 (.inl ⟨r, hr, rfl⟩)
  · exact (take_some_iff _ _ _).2 (.inr ⟨hr, q ++ [b], congrArg (· ++ [b]) hq, rfl⟩)
  · exact (take_some_iff _ _ _).2 (.inr ⟨hr, q, hq, rfl⟩)

theorem Received.ctrl {s1 t : State} (h : Received s1 t) : t.ctrl = s1.ctrl := by
  cases h <;> simp

theorem recvByte_srcDeliver (i : Instr) (b0 b : Byte) (s : State) :
    recvByte (pullDone i) b0 (srcDeliver b s) = srcDeliver b (recvByte (pullDone i) b0 s) := by
  have hr := recvByte_received i b0 s
  unfold srcDeliver
  rw [hr.env]
  split
  · rfl
  · refine (recvByte_amid i b0 s s.ctrl _).trans ?_
    rw [State.amid, ← hr.ctrl]

theorem pullPending_iff (s : State) : s.pullPending = true ↔ ∃ i, s.rxc.cmd = some i ∧ isPull i = true := by
  rw [State.pullPending, Option.any_eq_true]

theorem chanStep_pull_take {i : Instr} {s s1 : State} {b : Byte} (pull : isPull i = true) (pending : s.rxc.cmd = some i)
    (h : s.take = some (b, s1)) : chanStep .rxc s = .next (recvByte (pullDone i) b s1) := by
  rw [chanStep_executing .rxc pending, exec_pull_take pull pending h]

theorem srcDeliver_rxc (b : Byte) (s : State) : (srcDeliver b s).rxc = s.rxc := by
  rcases srcDeliver_cases b s with ⟨h, -⟩ | ⟨-, h⟩ <;> rw [h]

/-- Settles O36: the byte is taken from the front and delivered at the back. -/
theorem deliveryCommutes : Obligations.DeliveryCommutes := by
  intro s b hpending htake
  obtain ⟨i, pending, pull⟩ := (pullPending_iff s).1 hpending
  obtain ⟨⟨b0, s1⟩, hb⟩ := Option.ne_none_iff_exists'.1 htake
  refine ⟨_, _, _, chanStep_pull_take pull pending hb, rfl, rfl, ?_⟩
  rw [← recvByte_srcDeliver]
  exact chanStep_pull_take pull (by rw [srcDeliver_rxc, pending]) (take_srcDeliver hb b)

/-! ### The control registers -/

/-- Taking a byte does not look at the control registers. -/
theorem take_withCtrl {s s1 : State} {b : Byte} (h : s.take = some (b, s1)) (k : Cfg) :
    ({ s with ctrl := k } : State).take = some (b, { s1 with ctrl := k }) := by
  rcases (take_some_iff _ _ _).1 h with ⟨r, hr, rfl⟩ | ⟨hr, q, hq, rfl⟩
  · exact (take_some_iff _ _ _).2 (.inl ⟨r, hr, rfl⟩)
  · exact (take_some_iff _ _ _).2 (.inr ⟨hr, q, hq, rfl⟩)

theorem recvByte_withCtrl (i : Instr) (b : Byte) (s : State) (k : Cfg) :
    recvByte (pullDone i) b { s with ctrl := k } = { recvByte (pullDone i) b s with ctrl := k } := by
  refine (recvByte_amid i b s k s.env).trans ?_
  rw [State.amid, ← (recvByte_received i b s).env]

/-- R192 cases 2 and 3. -/
theorem recvStep_noInput {s : State} (h : s.take = none) (done : Byte → List Byte → State → State) :
    recvStep done s = if s.env.srcClosed then observeClosure s else s := by
  simp only [recvStep, h]

theorem recvStep_withCtrl (i : Instr) (s : State) (k : Cfg) :
    recvStep (pullDone i) { s with ctrl := k } = { recvStep (pullDone i) s with ctrl := k } := by
  cases hb : s.take with
  | some p =>
    obtain ⟨b, s1⟩ := p
    rw [recvStep_take hb, recvStep_take (take_withCtrl hb k), recvByte_withCtrl]
  | none =>
    have hb' : ({ s with ctrl := k } : State).take = none := (take_none_iff _).2 ((take_none_iff s).1 hb)
    rw [recvStep_noInput hb, recvStep_noInput hb']
    cases s.env.srcClosed <;> rfl

theorem sendWait_withCtrl (s : State) (k : Cfg) : sendWait { s with ctrl := k } = { sendWait s with ctrl := k } := by
  unfold sendWait
  cases s.env.snkClosed <;> rfl

/-- On a channel that executes it already, a command of one step makes no move (log entry 10). -/
theorem oneStep_executing {c : Channel} {i : Instr} {s : State} (h : (s.chan c).cmd = some i) (f : State → State) :
    oneStep c i s f = s :=
  oneStep_busy c i s f (by rw [h]; rfl)

/-- What the further step of a running command does: a receive step, the wait for the sink, or no move. -/
def continued : Instr → State → State
  | .rxNextEnv => recvStep envDone
  | .rxNextFrame => recvStep frameDone
  | .txSend _ _ _ => sendWait
  | _ => id

theorem exec_executing {i : Instr} {s : State} (h : (s.chan i.channel).cmd = some i) : exec i s = .next (continued i s) := by
  cases i with
  | rxNextEnv => exact execRxNextEnv_pending s h
  | rxNextFrame => exact execRxNextFrame_pending s h
  | txSend rid topic data => exact execTxSend_waiting rid topic data s h
  | csum | build | extract => exact congrArg Host.Outcome.next (oneStep_executing h _)
  | csrRead | csrWrite => exact congrArg Host.Outcome.next (csrCommand_busy _ _ s _ (Option.isSome_of_eq_some h))

theorem continued_withCtrl (i : Instr) (s : State) (k : Cfg) :
    continued i { s with ctrl := k } = { continued i s with ctrl := k } := by
  cases i with
  | rxNextEnv => exact recvStep_withCtrl .rxNextEnv s k
  | rxNextFrame => exact recvStep_withCtrl .rxNextFrame s k
  | txSend => exact sendWait_withCtrl s k
  | csum | build | extract | csrRead | csrWrite => rfl

theorem chan_withCtrl (s : State) (k : Cfg) (c : Channel) : ({ s with ctrl := k } : State).chan c = s.chan c := by
  cases c <;> rfl

/-- A further step of a command does not look at CTRL or SYNC_BUDGET. -/
theorem exec_withCtrl {i : Instr} {s t : State} (executing : (s.chan i.channel).cmd = some i) (h : exec i s = .next t)
    (k : Cfg) : exec i { s with ctrl := k } = .next { t with ctrl := k } := by
  cases (exec_executing executing).symm.trans h
  rw [exec_executing (by rw [chan_withCtrl, executing]), continued_withCtrl]

/-- A CSR write leaves the snapshots of the other two channels, a soft reset included (log entry 12). -/
theorem writeEffect_cfg (off : Half) (v : Word) (s : State) :
    (writeEffect off v s).rxc.cfg = s.rxc.cfg ∧ (writeEffect off v s).txc.cfg = s.txc.cfg := by
  rcases writeEffect_cases off v s with ⟨-, -, k, h⟩ | ⟨k, st, cnt, h⟩ <;> rw [h]
  · rw [softReset_eq]
    exact ⟨rfl, rfl⟩
  · exact ⟨rfl, rfl⟩

theorem csrWrite_cfg {s t : State} {off : Half} {v : Word} (h : exec (.csrWrite off v) s = .next t) :
    t.rxc.cfg = s.rxc.cfg ∧ t.txc.cfg = s.txc.cfg := by
  cases idle : s.ctlc.cmd with
  | some i =>
    cases (congrArg Host.Outcome.next (csrCommand_busy _ _ s _ (Option.isSome_of_eq_some idle))).symm.trans h
    exact ⟨rfl, rfl⟩
  | none =>
    cases (execCsrWrite_idle off v s idle).symm.trans h
    split
    · exact writeEffect_cfg off v (accept .ctlc (.csrWrite off v) s)
    · exact ⟨rfl, rfl⟩

/-! ### The snapshot taken at the acceptance -/

theorem complete_cfg (c : Channel) (r : Response) (s : State) : ((complete c r s).chan c).cfg = (s.chan c).cfg := by
  rw [complete_chan_self]

theorem accept_cfg (c : Channel) (i : Instr) (s : State) : ((accept c i s).chan c).cfg = s.ctrl := by
  rw [accept_chan_self]

theorem pullAccept_cfg (i : Instr) (s : State) : (pullAccept i s).rxc.cfg = s.ctrl := by
  simp only [pullAccept]
  split <;> rfl

theorem sendAccept_cfg (rid : Byte) (topic : Half) (data : List Byte) (s : State) :
    (sendAccept rid topic data s).txc.cfg = s.txc.cfg := by
  rcases sendAccept_cases rid topic data s with ⟨-, h⟩ | ⟨e, -, -, h⟩ | ⟨e, -, -, h⟩ <;> rw [h] <;> rfl

/-- An idle channel samples the control registers with any command but a CSR one, whose offset may be refused (R266). -/
theorem exec_idle_cfg {i : Instr} {s t : State} (idle : (s.chan i.channel).cmd = none) (noRead : ∀ off, i ≠ .csrRead off)
    (noWrite : ∀ off v, i ≠ .csrWrite off v) (h : exec i s = .next t) : (t.chan i.channel).cfg = s.ctrl := by
  cases i with
  | csum c data =>
    cases (execCsum_idle c data s idle).symm.trans h
    exact (complete_cfg c _ _).trans (accept_cfg c _ s)
  | build c rid topic data =>
    cases (execBuild_idle c rid topic data s idle).symm.trans h
    exact (complete_cfg c _ _).trans (accept_cfg c _ s)
  | extract c data =>
    cases (execExtract_idle c data s idle).symm.trans h
    exact (complete_cfg c _ _).trans (accept_cfg c _ s)
  | rxNextEnv =>
    cases (execRxNextEnv_idle s idle).symm.trans h
    exact pullAccept_cfg _ s
  | rxNextFrame =>
    cases (execRxNextFrame_idle s idle).symm.trans h
    exact pullAccept_cfg _ s
  | txSend rid topic data =>
    cases (execTxSend_idle rid topic data s idle).symm.trans h
    exact sendAccept_cfg rid topic data _
  | csrRead off => exact absurd rfl (noRead off)
  | csrWrite off v => exact absurd rfl (noWrite off v)

/-- Settles O49: the snapshot is written at acceptance alone, and a further step reads it and not the registers. -/
theorem runningCommandKeepsSnapshot : Obligations.RunningCommandKeepsSnapshot :=
  ⟨fun _ _ _ _ => csrWrite_cfg, fun _ _ _ k executing h => exec_withCtrl executing h k,
    fun _ _ _ => exec_idle_cfg⟩

end Sys2Proof.Machine
end

section
/-! PROOFS. The bytes of a payload and the frame they make (spec/43_stream_reader.md R200, R201, R209). -/

namespace Sys2Proof.Machine

/-- Settles O24: the high length byte that is not the end, and the payload byte that is not the last. -/
theorem payloadCollected : Obligations.PayloadCollected := by
  intro i s s1 b hi pending hb
  have hrx := take_rx_eq hb
  have hst1 : s1.rx.st = s.rx.st := by rw [hrx]
  have hlo : s1.rx.lenLo = s.rx.lenLo := by rw [hrx]
  have hbuf : s1.rx.buf = s.rx.buf := by rw [hrx]
  have hlen : s1.rx.len = s.rx.len := by rw [hrx]
  rw [exec_pull_take ((isPull_iff i).2 hi) pending hb, ← hst1, ← hlo, ← hbuf, ← hlen]
  exact ⟨fun hst hne => congrArg _ (recvByte_hdrLenHi _ b s1 hst hne),
    fun hst more => congrArg _ (recvByte_payload _ b s1 hst more.ne)⟩

/-! ### The verdict's counters and sticky bits -/

theorem count_eq_add (k : Word) (b : Bool) : (if b then k + 1 else k) = k + BitVec.ofNat 32 b.toNat := by
  cases b <;> simp

theorem Counters.verdict_ok (k : Counters) {v : Verdict} (h : v.status = .ok) :
    k.verdict v = { k with
      frameOk := k.frameOk + 1
      cs1Bad := k.cs1Bad + BitVec.ofNat 32 v.cs1Bad.toNat
      cs2Bad := k.cs2Bad + BitVec.ofNat 32 v.cs2Bad.toNat } := by
  simp only [Counters.verdict, count_eq_add, h]
  rfl

theorem Counters.verdict_reject (k : Counters) {v : Verdict} (h : v.status ≠ .ok) :
    k.verdict v = { k with
      badSync := k.badSync + (if v.status = .badSyncOrVersion then 1 else 0)
      badLen := k.badLen + (if v.status = .badLength then 1 else 0)
      cs1Bad := k.cs1Bad + BitVec.ofNat 32 v.cs1Bad.toNat
      cs2Bad := k.cs2Bad + BitVec.ofNat 32 v.cs2Bad.toNat } := by
  simp only [Counters.verdict, count_eq_add, if_neg h]
  congr 1 <;> split_ifs <;> simp

theorem Sticky.verdict_ok (k : Sticky) {v : Verdict} (h : v.status = .ok) :
    k.verdict v = { k with csumSeen := k.csumSeen || v.cs1Bad || v.cs2Bad } := by
  simp [Sticky.verdict, h]

theorem Sticky.verdict_reject (k : Sticky) {v : Verdict} (h : v.status ≠ .ok) :
    k.verdict v = { k with rxReject := true, csumSeen := k.csumSeen || v.cs1Bad || v.cs2Bad } := by
  simp [Sticky.verdict, h]

/-! ### RX_NEXT_FRAME -/

/-- An accepted frame is returned and counted; nothing is replayed (R209). -/
theorem frameDone_ok {s : State} {e : List Byte} {v : Verdict} (hv : v = extract e s.rxc.cfg.strict) (h : v.status = .ok)
    (rid : Byte) :
    frameDone rid e s =
      { s.returned .rxc ⟨.ok, v.cs1Bad, v.cs2Bad, rid, v.topic.setWidth 32, v.payload⟩ with
        cnt := s.cnt.verdict v
        sticky := s.sticky.verdict v } := by
  simp only [frameDone, ← hv, verdictResponse, h, ne_eq, not_true_eq_false, false_and, if_false]
  rfl

/-- A rejected frame is reported and counted, and replayed where the rescan was sampled on (R209, R213). -/
theorem frameDone_reject {s : State} {e : List Byte} {v : Verdict} (hv : v = extract e s.rxc.cfg.strict)
    (h : v.status ≠ .ok) (rid : Byte) :
    frameDone rid e s =
      { s.returned .rxc ⟨v.status, v.cs1Bad, v.cs2Bad, rid, 0, []⟩ with
        rx := { s.rx with replay := if s.rxc.cfg.rescan then rescanBytes rid e ++ s.rx.replay else s.rx.replay }
        cnt := s.cnt.verdict v
        sticky := s.sticky.verdict v } := by
  have hreject := extract_reject (hv ▸ h)
  rw [← hv] at hreject
  obtain ⟨htopic, hpayload⟩ := hreject
  simp only [frameDone, ← hv, verdictResponse, htopic, hpayload, ne_eq, h, not_false_eq_true, true_and]
  rfl

/-- Settles O26: the completing step hands the envelope to RX_NEXT_FRAME, which returns it. -/
theorem frameAccepted : Obligations.FrameAccepted := by
  intro s s1 e v pending h hv hok
  rw [execRxNextFrame_pending s pending, recvStep_completes frameDone h, frameDone_ok (by rw [rehunted_rxc, h.rxc, hv]) hok,
    Counters.verdict_ok _ hok, Sticky.verdict_ok _ hok]
  rfl

/-- Settles O27: the completing step hands the envelope to RX_NEXT_FRAME, which rejects it. -/
theorem frameRejected : Obligations.FrameRejected := by
  intro s s1 e v pending h hv hbad
  have hreject := frameDone_reject (s := s1.rehunted) (by rw [rehunted_rxc, h.rxc, hv]) hbad s.rx.rid
  rw [rehunted_rxc, h.rxc, Counters.verdict_reject _ hbad, Sticky.verdict_reject _ hbad] at hreject
  rw [execRxNextFrame_pending s pending, recvStep_completes frameDone h, hreject]
  rfl

end Sys2Proof.Machine
end

section
/-! PROOFS. The byte-serial reader against the source's `next_envelope` (spec/43_stream_reader.md R204 to R206). A run of RXC is cut
where `sourceEnvelope` cuts the stream: the skipped bytes, the four header bytes, the payload. -/

namespace Sys2Proof.Machine

/-! ### The source's reader -/

/-- The source's reader finds an envelope where the stream is noise, a header and at least the declared payload. -/
theorem sourceEnvelope_append {noise e rest : List Byte} {rid lo hi : Byte} (quiet : ∀ b ∈ noise, b ≠ 0xFF)
    (hlen : e.length = lo.toNat + 256 * hi.toNat) :
    sourceEnvelope (noise ++ 0xFF :: rid :: lo :: hi :: (e ++ rest)) = some (rid, e, rest) := by
  have skip : (noise ++ 0xFF :: rid :: lo :: hi :: (e ++ rest)).dropWhile (fun b => b != 0xFF)
      = 0xFF :: rid :: lo :: hi :: (e ++ rest) :=
    List.dropWhile_append_of_pos fun b hb => bne_iff_ne.2 (quiet b hb)
  simp only [sourceEnvelope, skip, ← hlen]
  simp

/-- It finds an envelope nowhere else; what it skips is what comes before the first 0xFF. -/
theorem sourceEnvelope_some {q e rest : List Byte} {rid : Byte} (h : sourceEnvelope q = some (rid, e, rest)) :
    ∃ lo hi, q = q.takeWhile (fun b => b != 0xFF) ++ 0xFF :: rid :: lo :: hi :: (e ++ rest) ∧
      e.length = (le16 lo hi).toNat := by
  unfold sourceEnvelope at h
  split at h
  · next b rid' lo hi tail hdrop =>
    have sync : b = 0xFF := by
      have := List.head?_dropWhile_not (fun b : Byte => b != 0xFF) q
      rw [hdrop] at this
      simpa using this
    subst sync
    split_ifs at h with short
    cases h
    refine ⟨lo, hi, ?_, ?_⟩
    · rw [List.take_append_drop, ← hdrop, List.takeWhile_append_dropWhile]
    · rw [List.length_take, le16_toNat]
      omega
  · cases h

/-- Settles O35: a built envelope is a header and the inner frame that its length field declares. -/
theorem noiseThenEnvelope : Obligations.NoiseThenEnvelope := by
  intro topic rid P E noise tail hbuild quiet
  obtain ⟨hP, rfl⟩ := (build_eq_some_iff topic rid P E).1 hbuild
  have hlen := envelope_lengthField topic rid (P := P) (by omega)
  rw [le16_toNat] at hlen
  rw [List.append_assoc, envelope_drop]
  exact sourceEnvelope_append quiet ((innerFrame_length topic P).trans hlen.symm)

/-! ### A run of RXC -/

/-- `n` steps of the machine lead from `s` to `t`. -/
def Runs (n : Nat) (s t : State) : Prop := Host.Core.run core n s = .next t

theorem Runs.refl (s : State) : Runs 0 s s := rfl

theorem Runs.cons {n : Nat} {s u t : State} (h : step s = .next u) (hrun : Runs n u t) : Runs (n + 1) s t :=
  (run_of_next core n h).trans hrun

theorem Runs.trans {m n : Nat} {s u t : State} (h : Runs m s u) (hrun : Runs n u t) : Runs (m + n) s t := by
  induction m generalizing s with
  | zero =>
    cases h
    rwa [Nat.zero_add]
  | succ m ih =>
    obtain ⟨v, hv⟩ := step_next s
    rw [Nat.add_right_comm]
    exact .cons hv (ih ((run_of_next core m hv).symm.trans h))

/-- `s` with other receive registers and counters, and other source bytes and moves to come. -/
def State.reading (s : State) (rx : RxPath) (cnt : Counters) (q : List Byte) (ms : List Move) : State :=
  { s with rx := rx, cnt := cnt, env := { s.env with srcQ := q }, moves := ms }

/-- `n` steps of RXC, then `ms`. -/
def rxcMoves (n : Nat) (ms : List Move) : List Move := List.replicate n (.chan .rxc) ++ ms

theorem rxcMoves_succ (n : Nat) (ms : List Move) : rxcMoves (n + 1) ms = .chan .rxc :: rxcMoves n ms := rfl

theorem rxcMoves_add (m n : Nat) (ms : List Move) : rxcMoves (m + n) ms = rxcMoves m (rxcMoves n ms) := by
  rw [rxcMoves, List.replicate_add, List.append_assoc]
  rfl

/-- The state in which RX_NEXT_ENV has returned the envelope (R202, R208). -/
def State.received (s : State) (rid : Byte) (e : List Byte) (cnt : Counters) (q : List Byte) (ms : List Move) : State :=
  envDone rid e (s.reading (RxPath.idle [] 0) { cnt with env := cnt.env + 1 } q ms)

section Run

variable {s : State} (pending : s.rxc.cmd = some .rxNextEnv)
include pending

/-- While RX_NEXT_ENV is pending with nothing to replay, a step of RXC takes the next source byte. -/
theorem Runs.take {rx : RxPath} (hreplay : rx.replay = []) {cnt : Counters} {b : Byte} {q : List Byte} {ms : List Move}
    {n : Nat} {u t : State} (h : recvByte envDone b (s.reading rx cnt q (rxcMoves n ms)) = u) (hrun : Runs n u t) :
    Runs (n + 1) (s.reading rx cnt (b :: q) (rxcMoves (n + 1) ms)) t := by
  refine .cons ?_ hrun
  rw [step_of_moves (s := s.reading rx cnt (b :: q) (rxcMoves (n + 1) ms)) (rxcMoves_succ n ms), ← h]
  exact chanStep_pull_take (i := .rxNextEnv) rfl pending ((take_some_iff _ _ _).2 (.inr ⟨hreplay, q, rfl, rfl⟩))

/-- R197: with no budget, HUNT skips every byte before the sync byte and counts it. -/
theorem runs_noise (noBudget : s.rxc.cfg.budget = 0) {noise : List Byte} (quiet : ∀ b ∈ noise, b ≠ 0xFF) {rx : RxPath}
    (hst : rx.st = .hunt) (hreplay : rx.replay = []) (cnt : Counters) (q : List Byte) (ms : List Move) :
    ∃ huntRun, Runs noise.length (s.reading rx cnt (noise ++ q) (rxcMoves noise.length ms))
      (s.reading { rx with huntRun := huntRun }
        { cnt with huntDrop := cnt.huntDrop + BitVec.ofNat 32 noise.length } q ms) := by
  induction noise generalizing rx cnt with
  | nil => exact ⟨rx.huntRun, by simp [Runs.refl, rxcMoves]⟩
  | cons b noise ih =>
    obtain ⟨huntRun, hrun⟩ := ih (fun b hb => quiet b (List.mem_cons_of_mem _ hb))
      (rx := { rx with huntRun := rx.huntRun + 1 }) hst hreplay { cnt with huntDrop := cnt.huntDrop + 1 }
    have count : cnt.huntDrop + 1 + BitVec.ofNat 32 noise.length = cnt.huntDrop + BitVec.ofNat 32 (noise.length + 1) := by
      rw [Nat.add_comm, BitVec.ofNat_add, ← BitVec.add_assoc]
      rfl
    refine ⟨huntRun, .take pending hreplay ?_ (count ▸ hrun)⟩
    rw [recvByte_drop envDone b (s.reading rx cnt _ _) hst (quiet b List.mem_cons_self)]
    rcases dropByte_cases (s.reading rx cnt (noise ++ q) (rxcMoves noise.length ms)) with ⟨-, h⟩ | ⟨⟨hne, -⟩, -⟩
    · exact h
    · exact absurd noBudget hne

/-- R201: the payload bytes are collected, and the last one returns the envelope. -/
theorem runs_payload {bs : List Byte} (hne : bs ≠ []) {rid lo : Byte} {len : Half} {buf : List Byte}
    (hlen : buf.length + bs.length = len.toNat) (cnt : Counters) (q : List Byte) (ms : List Move) :
    Runs bs.length (s.reading ⟨.payload, rid, lo, len, buf, [], 0⟩ cnt (bs ++ q) (rxcMoves bs.length ms))
      (s.received rid (buf ++ bs) cnt q ms) := by
  induction bs generalizing buf with
  | nil => exact absurd rfl hne
  | cons b bs ih =>
    rw [List.length_cons] at hlen
    cases bs with
    | nil => exact .take pending rfl (recvByte_last _ b (s.reading _ cnt q ms) rfl hlen) (.refl _)
    | cons c bs =>
      rw [List.length_cons] at hlen
      have more : buf.length + 1 ≠ len.toNat := by omega
      have hrun := ih (List.cons_ne_nil c bs) (buf := buf ++ [b]) (by simp; omega)
      rw [List.append_assoc] at hrun
      exact .take pending rfl (recvByte_payload _ b (s.reading _ cnt _ _) rfl more) hrun

/-- R197 to R201: from HUNT the sync byte, the robot id, the two length bytes and the payload return the envelope. -/
theorem runs_envelope {rx : RxPath} (hst : rx.st = .hunt) (hreplay : rx.replay = []) {rid lo hi : Byte} {e : List Byte}
    (hlen : e.length = (le16 lo hi).toNat) (cnt : Counters) (q : List Byte) (ms : List Move) :
    Runs (e.length + 4) (s.reading rx cnt (0xFF :: rid :: lo :: hi :: (e ++ q)) (rxcMoves (e.length + 4) ms))
      (s.received rid e cnt q ms) := by
  obtain ⟨st, rid0, lo0, len0, buf0, replay, run⟩ := rx
  obtain rfl : st = .hunt := hst
  obtain rfl : replay = [] := hreplay
  refine .take pending rfl (recvByte_sync _ (s.reading _ cnt _ _) rfl) ?_
  refine .take pending rfl (recvByte_hdrId _ rid (s.reading _ cnt _ _) rfl) ?_
  refine .take pending rfl (recvByte_hdrLenLo _ lo (s.reading _ cnt _ _) rfl) ?_
  by_cases hne : e = []
  · subst hne
    have empty : le16 lo hi = 0 := BitVec.eq_of_toNat_eq hlen.symm
    exact .take pending rfl (recvByte_empty _ hi (s.reading _ cnt _ _) rfl empty) (.refl _)
  · have nonzero : le16 lo hi ≠ 0 := fun h => hne (List.eq_nil_of_length_eq_zero (by rw [hlen, h]; rfl))
    exact .take pending rfl (recvByte_hdrLenHi _ hi (s.reading _ cnt _ _) rfl nonzero)
      (runs_payload pending hne (buf := []) ((Nat.zero_add _).trans hlen) cnt q ms)

end Run

/-- Settles O34: the steps are those of the skipped bytes and those of the envelope. -/
theorem readerMatchesSource : Obligations.ReaderMatchesSource := by
  intro s rid e rest ms pending noBudget hst hreplay hsource hmoves
  obtain ⟨lo, hi, hq, hlen⟩ := sourceEnvelope_some hsource
  generalize hnoise : s.env.srcQ.takeWhile (fun b => b != 0xFF) = noise at hq ⊢
  have quiet : ∀ b ∈ noise, b ≠ 0xFF := fun b hb => by
    have := List.mem_takeWhile_imp (hnoise ▸ hb : b ∈ s.env.srcQ.takeWhile (fun b => b != 0xFF))
    simpa using this
  have steps : s.env.srcQ.length - rest.length = noise.length + (e.length + 4) := by
    rw [hq]
    simp only [List.length_append, List.length_cons]
    omega
  rw [steps] at hmoves ⊢
  have hs : s = s.reading s.rx s.cnt (noise ++ 0xFF :: rid :: lo :: hi :: (e ++ rest))
      (rxcMoves noise.length (rxcMoves (e.length + 4) ms)) := by
    rw [← rxcMoves_add, ← hq, rxcMoves, ← hmoves]
    rfl
  obtain ⟨huntRun, skipped⟩ := runs_noise pending noBudget quiet hst hreplay s.cnt
    (0xFF :: rid :: lo :: hi :: (e ++ rest)) (rxcMoves (e.length + 4) ms)
  rw [← hs] at skipped
  refine ⟨_, skipped.trans (runs_envelope pending ?_ ?_ hlen _ rest ms), rfl, rfl, rfl, rfl, rfl, rfl, rfl, rfl⟩
  · exact hst
  · exact hreplay

end Sys2Proof.Machine
end

section
/-! PROOFS. What the control registers read (spec/44_control.md R243, spec/10_state.md R30 to R35) and what a write does to them
(R247). -/

namespace Sys2Proof.Machine

/-! ### Fields of one bit -/

/-- A one-bit field above a value adds to it. -/
theorem or_bitAt_toNat {x : Word} {a n : Nat} (hx : x.toNat = a) (h : a < 2 ^ n) (hn : n < 32) (b : Bool) :
    (x ||| bitAt b n).toNat = a + 2 ^ n * b.toNat := by
  cases b with
  | false => simp [bitAt, hx]
  | true =>
    have hbit : (BitVec.twoPow 32 n).toNat = 2 ^ n * 1 := by
      rw [BitVec.toNat_twoPow, Nat.mod_eq_of_lt (Nat.pow_lt_pow_right (by decide) hn), Nat.mul_one]
    rw [bitAt, if_pos rfl, BitVec.toNat_or, hx, hbit, Nat.or_comm, ← Nat.two_pow_add_eq_or_of_lt h, Nat.add_comm]
    rfl

theorem getLsbD_bitAt (b : Bool) {n : Nat} (hn : n < 32) (k : Nat) : (bitAt b n).getLsbD k = (b && decide (k = n)) := by
  cases b <;> simp [bitAt, BitVec.getLsbD_twoPow, hn, eq_comm]

theorem rxStateCode_le (st : RxState) : (rxStateCode st).toNat ≤ 4 := by
  cases st <;> decide

/-- RX_STATE takes three bits. -/
theorem rxStateCode_getLsbD (st : RxState) {k : Nat} (hk : 3 ≤ k) : (rxStateCode st).getLsbD k = false := by
  rw [← BitVec.testBit_toNat]
  exact Nat.testBit_lt_two_pow (((rxStateCode_le st).trans_lt (by decide)).trans_le (Nat.pow_le_pow_right (by decide) hk))

/-- STATUS is the sum of its fields: they do not overlap (R31). -/
theorem statusWord_toNat (s : State) :
    (statusWord s).toNat =
      (rxStateCode s.rx.st).toNat + 2 ^ 3 * s.rxc.cmd.isSome.toNat + 2 ^ 4 * s.txc.cmd.isSome.toNat
        + 2 ^ 8 * s.rxClosed.toNat + 2 ^ 9 * s.txClosed.toNat + 2 ^ 16 * s.sticky.nosync.toNat
        + 2 ^ 17 * s.sticky.rxReject.toNat + 2 ^ 18 * s.sticky.csumSeen.toNat := by
  have := rxStateCode_le s.rx.st
  have := s.rxc.cmd.isSome.toNat_le
  have := s.txc.cmd.isSome.toNat_le
  have := s.rxClosed.toNat_le
  have := s.txClosed.toNat_le
  have := s.sticky.nosync.toNat_le
  have := s.sticky.rxReject.toNat_le
  have fields := or_bitAt_toNat
    (or_bitAt_toNat
      (or_bitAt_toNat
        (or_bitAt_toNat
          (or_bitAt_toNat
            (or_bitAt_toNat
              (or_bitAt_toNat (x := rxStateCode s.rx.st) (n := 3) rfl (by omega) (by decide) s.rxc.cmd.isSome)
              (n := 4) (by omega) (by decide) s.txc.cmd.isSome)
            (n := 8) (by omega) (by decide) s.rxClosed)
          (n := 9) (by omega) (by decide) s.txClosed)
        (n := 16) (by omega) (by decide) s.sticky.nosync)
      (n := 17) (by omega) (by decide) s.sticky.rxReject)
    (n := 18) (by omega) (by decide) s.sticky.csumSeen
  exact fields

theorem ctrlWord_toNat (s : State) : (ctrlWord s).toNat = s.ctrl.strict.toNat + 2 * s.ctrl.rescan.toNat := by
  unfold ctrlWord
  cases s.ctrl.strict <;> cases s.ctrl.rescan <;> rfl

/-! ### CSR_READ -/

theorem word_eq_of_toNat {x : Word} {n : Nat} (h : x.toNat = n) : x = BitVec.ofNat 32 n := by
  rw [← h, BitVec.ofNat_toNat, BitVec.setWidth_eq]

/-- The table's offsets pass R242's test, and each has the value that is read there. -/
theorem csrTable_value {s : State} {off : Half} {v : Word} (h : (off, v) ∈ csrTable s) :
    csrOffsetOk off = true ∧ csrValue off s = v := by
  simp only [csrTable, List.mem_cons, Prod.mk.injEq, List.not_mem_nil, or_false] at h
  rcases h with ⟨rfl, rfl⟩ | ⟨rfl, rfl⟩ | h
  · exact ⟨by decide, word_eq_of_toNat (ctrlWord_toNat s)⟩
  · exact ⟨by decide, word_eq_of_toNat (statusWord_toNat s)⟩
  · rcases h with ⟨rfl, rfl⟩ | ⟨rfl, rfl⟩ | ⟨rfl, rfl⟩ | ⟨rfl, rfl⟩ | ⟨rfl, rfl⟩ | ⟨rfl, rfl⟩ | ⟨rfl, rfl⟩ | ⟨rfl, rfl⟩ |
      ⟨rfl, rfl⟩ | ⟨rfl, rfl⟩ | ⟨rfl, rfl⟩ | ⟨rfl, rfl⟩ <;> exact ⟨by decide, rfl⟩

/-- Settles O40: the value is read before the command's own acceptance, which changes no register. -/
theorem csrReadReturnsValue : Obligations.CsrReadReturnsValue := by
  intro s off v idle hmem
  obtain ⟨ok, hv⟩ := csrTable_value hmem
  rw [execCsrRead_idle off s idle, if_pos ok, hv, complete_accept_eq_answered]
  rfl

/-- Settles O41: every field of the two registers has its own bits, and the replay queue is shorter than 2^32. -/
theorem reservedBitsReadZero : Obligations.ReservedBitsReadZero := by
  intro s
  refine ⟨fun k hk => ?_, fun k hk => ?_, ?_, fun hinv => ?_⟩
  · change (ctrlWord s).getLsbD k = false
    simp [ctrlWord, getLsbD_bitAt]
    omega
  · change (statusWord s).getLsbD k = false
    obtain ⟨above, fields⟩ : 3 ≤ k ∧ ∀ n ∈ [3, 4, 8, 9, 16, 17, 18], k ≠ n := by
      simp only [List.mem_cons, List.not_mem_nil, or_false, forall_eq_or_imp, forall_eq] at hk ⊢
      omega
    simp only [List.mem_cons, List.not_mem_nil, or_false, forall_eq_or_imp, forall_eq] at fields
    simp [statusWord, getLsbD_bitAt, rxStateCode_getLsbD s.rx.st above, fields]
  · change ((statusWord s).extractLsb' 0 3).toNat ≤ 4
    have := rxStateCode_le s.rx.st
    rw [BitVec.extractLsb'_toNat, statusWord_toNat]
    omega
  · obtain ⟨-, -, hreplay, -⟩ := hinv
    change (BitVec.ofNat 32 s.rx.replay.length).toNat = s.rx.replay.length
    rw [BitVec.toNat_ofNat]
    omega

/-! ### CSR_WRITE -/

/-- A CSR write on an idle CTLC to a register (R245). -/
theorem execCsrWrite_ok {off : Half} {s : State} (idle : s.ctlc.cmd = none) (ok : csrOffsetOk off = true) (v : Word) :
    exec (.csrWrite off v) s
      = .next (complete .ctlc Response.done (writeEffect off v (accept .ctlc (.csrWrite off v) s))) := by
  rw [execCsrWrite_idle off v s idle, if_pos ok]

/-- Settles O43: each offset's effect is its own arm of R247. -/
theorem csrWriteEffects : Obligations.CsrWriteEffects := by
  rintro s _ v idle rfl
  refine ⟨fun noReset => ?_, ?_, ?_, ?_⟩ <;> rw [execCsrWrite_ok idle (by decide)]
  · have write : writeEffect 0x00 v (accept .ctlc (.csrWrite 0x00 v) s)
        = { accept .ctlc (.csrWrite 0x00 v) s with
            ctrl := { s.ctrl with strict := v.getLsbD 0, rescan := v.getLsbD 1 } } :=
      if_neg (Bool.eq_false_iff.1 noReset)
    rw [write]
    rfl
  all_goals rfl

/-- Settles O45: the two CTRL fields are written, the block is reset, and CTLC completes. -/
theorem softResetState : Obligations.SoftResetState := by
  intro s v idle hv
  rw [execCsrWrite_ok idle (by decide), writeEffect_ctrl_softReset hv, softReset_eq]
  rfl

/-! ### The counters -/

/-- Clearing the counter at `n` leaves what every other offset reads. -/
theorem csrValue_clear_ne (s : State) {n : Nat} {off : Half} (h : off.toNat ≠ n) :
    csrValue off { s with cnt := s.cnt.clear n } = csrValue off s := by
  unfold csrValue
  split
  case h_1 | h_2 | h_3 | h_4 | h_15 => rfl
  all_goals
    unfold Counters.clear
    split <;> simp_all

/-- A cleared counter reads 0. -/
theorem csrValue_clear_self (s : State) {off : Half} (counter : 0x10 ≤ off.toNat) :
    csrValue off { s with cnt := s.cnt.clear off.toNat } = 0 := by
  unfold csrValue
  split
  case h_1 | h_2 | h_3 | h_4 => omega
  case h_15 => rfl
  all_goals
    next hoff =>
      rw [hoff]
      rfl

/-- A write past REPLAY_LEVEL clears the counter there (R247). -/
theorem writeEffect_counter {off : Half} (counter : 0x10 ≤ off.toNat) (v : Word) (s : State) :
    writeEffect off v s = { s with cnt := s.cnt.clear off.toNat } := by
  unfold writeEffect
  split
  case h_5 => rfl
  all_goals omega

/-- Settles O44: the counters after the write are those of R35, whatever the value written. -/
theorem counterWriteClears : Obligations.CounterWriteClears := by
  intro s off idle aligned counter mapped
  have ok : csrOffsetOk off = true := by simp [csrOffsetOk, aligned, mapped]
  refine ⟨s.cnt.clear off.toNat, fun v => ?_, csrValue_clear_self s counter, fun other hne => ?_⟩
  · rw [execCsrWrite_ok idle ok, writeEffect_counter counter]
    rfl
  · exact csrValue_clear_ne s (BitVec.toNat_inj.not.2 hne)

/-! ### Power-on reset -/

/-- The registers that CTLC reads are at their reset values (R44, R291). -/
structure RegistersReset (t : State) : Prop where
  rx : t.rx = RxPath.reset
  ctrl : t.ctrl = Cfg.reset
  sticky : t.sticky = Sticky.reset
  cnt : t.cnt = Counters.reset
  idle : t.rxc.cmd = none ∧ t.txc.cmd = none ∧ t.ctlc.cmd = none
  unlatched : t.rxClosed = false ∧ t.txClosed = false

theorem reset_registersReset : RegistersReset State.reset :=
  ⟨rfl, rfl, rfl, rfl, ⟨rfl, rfl, rfl⟩, rfl, rfl⟩

theorem powerOnReset_registersReset (s : State) : RegistersReset (powerOnReset s) := by
  rw [powerOnReset, softReset_eq]
  exact ⟨rfl, rfl, rfl, rfl, ⟨rfl, rfl, rfl⟩, rfl, rfl⟩

theorem RegistersReset.not_busy {t : State} (h : RegistersReset t) (c : Channel) : t.busy c = false := by
  obtain ⟨hrx, htx, hct⟩ := h.idle
  cases c <;> simp [State.busy, hrx, htx, hct]

theorem RegistersReset.ctrlWord {t : State} (h : RegistersReset t) : ctrlWord t = 1 := by
  rw [Machine.ctrlWord, h.ctrl]
  rfl

theorem RegistersReset.statusWord {t : State} (h : RegistersReset t) : statusWord t = 0 := by
  obtain ⟨hrx, htx⟩ := h.unlatched
  rw [Machine.statusWord, h.rx, h.sticky, h.not_busy, h.not_busy, hrx, htx]
  rfl

/-- After a power-on reset every register but CTRL reads 0. -/
theorem RegistersReset.csrValue {t : State} (h : RegistersReset t) {off : Half} (hoff : off ≠ 0) : csrValue off t = 0 := by
  unfold Machine.csrValue
  split
  case h_1 hzero => exact absurd (BitVec.eq_of_toNat_eq hzero) hoff
  case h_2 => exact h.statusWord
  case h_3 => rw [h.ctrl]; rfl
  case h_4 => rw [h.rx]; rfl
  case h_15 => rfl
  all_goals rw [h.cnt]; rfl

/-- Settles O46: the reset writes what R291 lists, and every register then reads its reset value. -/
theorem powerOnResetState : Obligations.PowerOnResetState := by
  refine ⟨fun s => ?_, fun s t ht => ?_⟩
  · rw [applyMove, powerOnReset, softReset_eq]
    rfl
  · have h : RegistersReset t := by
      rcases ht with rfl | ht
      · exact reset_registersReset
      · cases ht
        exact powerOnReset_registersReset s
    exact ⟨h.not_busy, h.ctrlWord, fun _ hoff _ => h.csrValue hoff⟩

end Sys2Proof.Machine
end
